-- ==== Sys2Proof/Word.lean ====
section
/-! DEFINITION. The words of DMC-RX: bytes of the stream and the unsigned fields of a frame
(spec/00_scope.md R11). -/

namespace Sys2Proof

/-- A byte, 0..255 (R11). -/
abbrev Byte := BitVec 8

/-- An unsigned 16-bit field: type, length, checksum (R11). -/
abbrev U16 := BitVec 16

/-- An unsigned 32-bit field: the correlation id (R11). -/
abbrev U32 := BitVec 32

end Sys2Proof
end

