-- ==== Sys2Proof/Config.lean ====
section
/-! DEFINITION. The open parameters of DMC-RX (spec/00_scope.md R7): byte order, checksum, registry and the
names of response codes. What the spec leaves open is a constant with no body (log entry 3); the reference
configuration REF (R8) is one value of the parameters, for test vectors only. -/

namespace Sys2Proof

/-- The parameter ENDIAN (R7, R42): one byte order for every multi-byte field of every frame. -/
inductive Endian where
  | le
  | be
deriving DecidableEq, Repr, Inhabited

/-- Which function the parameter CKSUM is (R7, R101): the protocol's own, of which nothing is known here, or the
reference instance of REF (R106). -/
inductive Cksum where
  | protocol
  | crc16CcittFalse
deriving DecidableEq, Repr

/-- The parameter REG (R7, R32, R165): a partial map from 15-bit base codes to an exact payload size 0..2048.
`hiSize` is the size of Hi, base code `0x0001`, which every registry defines; `others` lists the remaining
entries, the first one for a code being the one that counts. -/
structure Registry where
  hiSize : Fin 2049
  others : List (BitVec 15 × Fin 2049)
deriving DecidableEq, Repr

/-- The three parameters of every step (R7). -/
structure Params where
  endian : Endian
  cksum : Cksum
  reg : Registry
deriving DecidableEq, Repr

/-- The ten names of the source's `ResponseCode` (R166). -/
inductive ResponseCode where
  | ok
  | errChecksum
  | errMoving
  | errUnsupported
  | errRange
  | errGeneral
  | errSoftUp
  | errSoftLow
  | errHardUp
  | errHardLow
deriving DecidableEq, Repr

/-- OPEN (R7, D4): the byte order the protocol has. Log entry 3. -/
opaque Config.endian : Endian

/-- OPEN (R101, D6): the protocol's checksum. Nothing is assumed of it; P2 is a premise where a statement needs
it. Log entry 3. -/
opaque Config.cksum : List Byte → U16

/-- OPEN (R165): the payload size of Hi. Log entry 3. -/
opaque Config.sizeHi : Fin 2049

/-- OPEN (R165): the base code of Dmx. Log entry 3. -/
opaque Config.codeDmx : BitVec 15

/-- OPEN (R165): the payload size of Dmx. Log entry 3. -/
opaque Config.sizeDmx : Fin 2049

/-- OPEN (R165): the base code of GuiOut. Log entry 3. -/
opaque Config.codeGuiOut : BitVec 15

/-- OPEN (R165): the payload size of GuiOut. Log entry 3. -/
opaque Config.sizeGuiOut : Fin 2049

/-- OPEN (R165): message types a caller added at compile time. Log entry 3. -/
opaque Config.moreTypes : List (BitVec 15 × Fin 2049)

/-- OPEN (R7 RC_NAME, R166, D14): the name the consumer gives a response code byte, if any. No step reads it.
Log entry 3. -/
opaque Config.rcName : Byte → Option ResponseCode

/-- The registry the protocol has (R165): Hi, Dmx, GuiOut and whatever was added at compile time. -/
def Config.registry : Registry :=
  { hiSize := Config.sizeHi
    others := (Config.codeDmx, Config.sizeDmx) :: (Config.codeGuiOut, Config.sizeGuiOut) :: Config.moreTypes }

/-- The parameters an instance is built with (R271), all open. -/
def Config.params : Params :=
  { endian := Config.endian, cksum := .protocol, reg := Config.registry }

/-- The reference configuration REF (R8): LE, CRC16_CCITT_FALSE, Hi with an empty payload and nothing else.
Not a claim about the protocol. -/
def Config.ref : Params :=
  { endian := .le, cksum := .crc16CcittFalse, reg := { hiSize := 0, others := [] } }

end Sys2Proof
end

