-- ==== Sys2Proof/Syntax.lean ====
section
/-! DEFINITION. The rows of spec/opcode_table.json, one constructor each (spec/30_encoding.md R78), with the
operands the rules give them. -/

namespace Sys2Proof

/-- The `format` of a row of the opcode table (R78, R71). -/
inductive Format where
  | cmd10
  | type16
  | byte
  | event3
  | engineAction
  | pureFunction
deriving DecidableEq, Repr

/-- The rows of the opcode table. A `data` operand holds the bits `cmd[7:0]` that R73 says are ignored. The type
classes carry, beside the base code of the type field, the declared length and the payload that the classifier
is given with it (R160; log entry 14). -/
inductive Instr where
  /-- NOP, R182. -/
  | nop (data : Byte)
  /-- FEED b, R183. -/
  | feed (b : Byte)
  /-- RESET, R184. -/
  | reset (data : Byte)
  /-- RSVD, the reserved op `11`, R185. -/
  | rsvd (data : Byte)
  /-- ACK, a type field with bit 15 set, R161. -/
  | ack (base : BitVec 15) (len : U16) (payload : List Byte)
  /-- CMD_HI, the type field `0x0001`, R162. -/
  | cmdHi (len : U16) (payload : List Byte)
  /-- CMD, a type field whose base code is registered, R162. -/
  | cmd (base : BitVec 15) (len : U16) (payload : List Byte)
  /-- UNKNOWN, a type field whose base code is not registered, R163. -/
  | unknown (base : BitVec 15) (len : U16) (payload : List Byte)
  /-- MARKER_D, the stream byte `0x44`, R122. -/
  | markerD
  /-- MARKER_F, the stream byte `0x46`, R123. -/
  | markerF
  /-- EV_DECODED, event code 0, R196. -/
  | evDecoded
  /-- EV_BAD_MARKER, event code 1, R193. -/
  | evBadMarker
  /-- EV_CHECKSUM_MISMATCH, event code 2, R197. -/
  | evChecksumMismatch
  /-- EV_LENGTH_MISMATCH, event code 3, R197. -/
  | evLengthMismatch
  /-- EV_UNKNOWN_TYPE, event code 4, R167. -/
  | evUnknownType
  /-- EV_RSVD, event codes `1xx`, R71; `low` is `xx`. -/
  | evRsvd (low : BitVec 2)
  /-- SKIP, R193. -/
  | skip
  /-- LOCK, R194. -/
  | lock
  /-- ACCEPT, R196. -/
  | accept
  /-- REJECT, R197. -/
  | reject
  /-- CK_COMPUTE, `compute(marker, id, type, length, payload)`, R102. -/
  | ckCompute (marker0 marker1 : Byte) (id : U32) (type len : U16) (payload : List Byte)
  /-- CK_VERIFY, `verify(frame_bytes)`, R103. -/
  | ckVerify (frame : List Byte)
  /-- DECODE, `decode(buffer)`, R121. -/
  | decode (buffer : List Byte)
  /-- CLASSIFY, `classify(ty, L, pl)`, R160. -/
  | classify (type len : U16) (payload : List Byte)
deriving DecidableEq, Repr

/-- The format of each row (opcode_table.json). -/
def Instr.format : Instr → Format
  | .nop _ => .cmd10
  | .feed _ => .cmd10
  | .reset _ => .cmd10
  | .rsvd _ => .cmd10
  | .ack _ _ _ => .type16
  | .cmdHi _ _ => .type16
  | .cmd _ _ _ => .type16
  | .unknown _ _ _ => .type16
  | .markerD => .byte
  | .markerF => .byte
  | .evDecoded => .event3
  | .evBadMarker => .event3
  | .evChecksumMismatch => .event3
  | .evLengthMismatch => .event3
  | .evUnknownType => .event3
  | .evRsvd _ => .event3
  | .skip => .engineAction
  | .lock => .engineAction
  | .accept => .engineAction
  | .reject => .engineAction
  | .ckCompute _ _ _ _ _ _ => .pureFunction
  | .ckVerify _ => .pureFunction
  | .decode _ => .pureFunction
  | .classify _ _ _ => .pureFunction

/-- Engine actions and pure functions have no bit encoding (R78). -/
def Instr.unencoded (i : Instr) : Bool :=
  i.format = .engineAction || i.format = .pureFunction

end Sys2Proof
end

