-- ==== Sys2Proof/WellFormed.lean ====
section
/-! DEFINITION. Which operands the spec gives each row: the domains of R102 and R160, and the codes two rows of
the table share. -/

namespace Sys2Proof

/-- The operands `L` and `pl` of the classifier (R160): `L` in 0..2048 and `pl` the `L` payload bytes. -/
def classOperandsOk (len : U16) (payload : List Byte) : Bool :=
  decide (len.toNat ≤ 2048) && decide (payload.length = len.toNat)

/-- An instruction the spec gives a meaning. Base code `0x0001` is the row CMD_HI, never CMD and, REG(0x0001)
being defined in every registry (R165), never UNKNOWN. Event code 4 is the row EV_UNKNOWN_TYPE (R71), so EV_RSVD
has a low part other than 0. `compute` takes 0 to 2048 payload bytes (R102). -/
def Instr.wf : Instr → Bool
  | .nop _ => true
  | .feed _ => true
  | .reset _ => true
  | .rsvd _ => true
  | .ack _ len payload => classOperandsOk len payload
  | .cmdHi len payload => classOperandsOk len payload
  | .cmd base len payload => decide (base ≠ 1) && classOperandsOk len payload
  | .unknown base len payload => decide (base ≠ 1) && classOperandsOk len payload
  | .markerD => true
  | .markerF => true
  | .evDecoded => true
  | .evBadMarker => true
  | .evChecksumMismatch => true
  | .evLengthMismatch => true
  | .evUnknownType => true
  | .evRsvd low => decide (low ≠ 0)
  | .skip => true
  | .lock => true
  | .accept => true
  | .reject => true
  | .ckCompute _ _ _ _ _ payload => decide (payload.length ≤ 2048)
  | .ckVerify _ => true
  | .decode _ => true
  | .classify _ len payload => classOperandsOk len payload

end Sys2Proof
end

