-- ==== Sys2Proof/Decode.lean ====
section
/-! DEFINITION. From the bits of an encoded row to its instruction and back (spec/30_encoding.md R69, R71, R73,
R74; opcode_table.json). A word of each format decodes to a row or is rejected by name. -/

namespace Sys2Proof

/-- An encoded row, by its format (R78). A type field stands with the length field and the payload that the
frame carries after it (R60). -/
inductive TableWord where
  | cmd (word : BitVec 10)
  | typeField (type len : U16) (payload : List Byte)
  | byte (b : Byte)
  | event (code : BitVec 3)
deriving DecidableEq, Repr

/-- Why a word is no row of the table. -/
inductive DecodeError where
  /-- A byte that is neither marker byte (R68). -/
  | notAMarkerByte
  /-- A length over 2048, or a payload whose length is not the length field's (R160). -/
  | classOperands
deriving DecidableEq, Repr

/-- `REG(base)` (R7, R162): Hi's entry for `0x0001`, else the first entry listed for `base`. -/
def registrySize (reg : Registry) (base : BitVec 15) : Option (Fin 2049) :=
  if base = 1 then some reg.hiSize else reg.others.lookup base

/-- The host command word (R73, R74): the op is `cmd[9:8]`, decoded alone; `cmd[7:0]` is the data. -/
def decodeCommand (word : BitVec 10) : Instr :=
  let op := word.extractLsb' 8 2
  let data := word.extractLsb' 0 8
  if op = 0 then .nop data
  else if op = 1 then .feed data
  else if op = 2 then .reset data
  else .rsvd data

/-- The type field's row (R69, R160): bit 15 first, then the registry. The word `0x0001` is CMD_HI. -/
def decodeType (reg : Registry) (type len : U16) (payload : List Byte) : Except DecodeError Instr :=
  if classOperandsOk len payload then
    let base := type.extractLsb' 0 15
    if type.getLsbD 15 then .ok (.ack base len payload)
    else if base = 1 then .ok (.cmdHi len payload)
    else if (registrySize reg base).isSome then .ok (.cmd base len payload)
    else .ok (.unknown base len payload)
  else .error .classOperands

/-- The marker bytes (R68). -/
def decodeMarker (b : Byte) : Except DecodeError Instr :=
  if b = 0x44 then .ok .markerD
  else if b = 0x46 then .ok .markerF
  else .error .notAMarkerByte

/-- The event codes (R71). -/
def decodeEvent (code : BitVec 3) : Instr :=
  if code = 0 then .evDecoded
  else if code = 1 then .evBadMarker
  else if code = 2 then .evChecksumMismatch
  else if code = 3 then .evLengthMismatch
  else if code = 4 then .evUnknownType
  else .evRsvd (code.extractLsb' 0 2)

/-- The row an encoded word is, under a registry. -/
def decodeWord (reg : Registry) : TableWord → Except DecodeError Instr
  | .cmd word => .ok (decodeCommand word)
  | .typeField type len payload => decodeType reg type len payload
  | .byte b => decodeMarker b
  | .event code => .ok (decodeEvent code)

/-- The encoding of a row (opcode_table.json); engine actions and pure functions have none (R78). -/
def encode : Instr → Option TableWord
  | .nop data => some (.cmd (0#2 ++ data))
  | .feed b => some (.cmd (1#2 ++ b))
  | .reset data => some (.cmd (2#2 ++ data))
  | .rsvd data => some (.cmd (3#2 ++ data))
  | .ack base len payload => some (.typeField (1#1 ++ base) len payload)
  | .cmdHi len payload => some (.typeField 0x0001 len payload)
  | .cmd base len payload => some (.typeField (0#1 ++ base) len payload)
  | .unknown base len payload => some (.typeField (0#1 ++ base) len payload)
  | .markerD => some (.byte 0x44)
  | .markerF => some (.byte 0x46)
  | .evDecoded => some (.event 0)
  | .evBadMarker => some (.event 1)
  | .evChecksumMismatch => some (.event 2)
  | .evLengthMismatch => some (.event 3)
  | .evUnknownType => some (.event 4)
  | .evRsvd low => some (.event (1#1 ++ low))
  | .skip => none
  | .lock => none
  | .accept => none
  | .reject => none
  | .ckCompute _ _ _ _ _ _ => none
  | .ckVerify _ => none
  | .decode _ => none
  | .classify _ _ _ => none

/-- The registry's condition on a row (the `select` of CMD and UNKNOWN in opcode_table.json, R69). -/
def Instr.selected (reg : Registry) : Instr → Bool
  | .cmd base _ _ => (registrySize reg base).isSome
  | .unknown base _ _ => (registrySize reg base).isNone
  | _ => true

/-- A row of the opcode table that has bits: its match and mask, as numbers. -/
structure BitRow where
  mtch : Nat
  mask : Nat
deriving DecidableEq, Repr

/-- The match and mask of each row that has them (opcode_table.json). -/
def Instr.bitRow : Instr → Option BitRow
  | .nop _ => some ⟨0x000, 0x300⟩
  | .feed _ => some ⟨0x100, 0x300⟩
  | .reset _ => some ⟨0x200, 0x300⟩
  | .rsvd _ => some ⟨0x300, 0x300⟩
  | .ack _ _ _ => some ⟨0x8000, 0x8000⟩
  | .cmdHi _ _ => some ⟨0x0001, 0xFFFF⟩
  | .cmd _ _ _ => some ⟨0x0000, 0x8000⟩
  | .unknown _ _ _ => some ⟨0x0000, 0x8000⟩
  | .markerD => some ⟨0x44, 0xFF⟩
  | .markerF => some ⟨0x46, 0xFF⟩
  | .evDecoded => some ⟨0x0, 0x7⟩
  | .evBadMarker => some ⟨0x1, 0x7⟩
  | .evChecksumMismatch => some ⟨0x2, 0x7⟩
  | .evLengthMismatch => some ⟨0x3, 0x7⟩
  | .evUnknownType => some ⟨0x4, 0x7⟩
  | .evRsvd _ => some ⟨0x4, 0x4⟩
  | .skip => none
  | .lock => none
  | .accept => none
  | .reject => none
  | .ckCompute _ _ _ _ _ _ => none
  | .ckVerify _ => none
  | .decode _ => none
  | .classify _ _ _ => none

/-- The number a word has in its own format (R73, R62, R68, R71). -/
def TableWord.bits : TableWord → Nat
  | .cmd word => word.toNat
  | .typeField type _ _ => type.toNat
  | .byte b => b.toNat
  | .event code => code.toNat

/-- The registry the host's numbered words are read under, since a number does not say which of CMD and UNKNOWN it
is: Hi is registered, as R165 demands, with the size the protocol has, which stays open (`Config.sizeHi`, log entry
3), and nothing else is. That nothing else is registered is the model's choice (DESIGN CHOICE, log entry 15). -/
def hiOnlyRegistry : Registry := { hiSize := Config.sizeHi, others := [] }

/-- A word of `nbits` bits (whole bytes) as an encoded row. The words of different formats overlap when they are
numbers only. Two bytes that are exactly `0x0001`, the one word CMD_HI fixes whole, are that type field; otherwise
below `0x400` they are a host command word, which is what the block's port carries, and from `0x400` up a type
field. A type field stands with length 0. One byte below 8 is an event code, else a stream byte. Log entry 15. -/
def tableWord (nbits w : Nat) : Option TableWord :=
  if nbits = 16 then
    if w = 1 then some (.typeField 1 0 [])
    else if w < 0x400 then some (.cmd (BitVec.ofNat 10 w))
    else if w < 0x10000 then some (.typeField (BitVec.ofNat 16 w) 0 [])
    else none
  else if nbits = 8 then
    if w < 8 then some (.event (BitVec.ofNat 3 w))
    else if w < 0x100 then some (.byte (BitVec.ofNat 8 w))
    else none
  else none

/-- What the decoder reads from an instruction whose bits are `w` (log entry 15). -/
def decodeTableWord (nbits w : Nat) : Option Instr :=
  match tableWord nbits w with
  | none => none
  | some word => (decodeWord hiOnlyRegistry word).toOption

end Sys2Proof
end

