-- ==== Sys2Proof/Machine/State.lean ====
section
/-! DEFINITION. Everything DMC-RX holds (spec/10_state.md R20 to R34), the values its units pass on (message,
event, decode result), and the reasons a step can be marked or refused. Plain data throughout. -/

namespace Sys2Proof.Machine

/-- The synchronizer state register (R21): `SEEK` = 0, `ACC` = 1. -/
inductive SyncState where
  | seek
  | acc
deriving DecidableEq, Repr

/-- The class of a frame (R69): `CMD` = 0, `ACK` = 1, `UNKNOWN` = 2. -/
inductive FrameClass where
  | cmd
  | ack
  | unknown
deriving DecidableEq, Repr

/-- The frame errors (R241). `unknownType` is in the source's list and is raised by no rule (R167). -/
inductive FrameError where
  | badMarker
  | checksumMismatch
  | lengthMismatch
  | unknownType
deriving DecidableEq, Repr

/-- The message record (R70). `len` and `consumed` are 12-bit counts, held as Nat (log entry 22). -/
structure Message where
  id : U32
  type : U16
  ack : Bool
  base : BitVec 15
  cls : FrameClass
  len : Nat
  payload : List Byte
  rc : Option Byte
  consumed : Nat
deriving DecidableEq, Repr

/-- What the frame decoder returns (R15, R72). -/
inductive DecodeResult where
  | complete (m : Message) (k : Nat)
  | incomplete
  | invalid (e : FrameError)
deriving DecidableEq, Repr

/-- What the type classifier returns (R160). -/
inductive ClassResult where
  | ok (cls : FrameClass) (rc : Option Byte)
  | bad
deriving DecidableEq, Repr

/-- An event (R15, R71). -/
inductive Event where
  | decoded (m : Message)
  | error (e : FrameError)
deriving DecidableEq, Repr

/-- An event with its ghost position, the value of `head` just before the action that emits it (R201). -/
structure Emission where
  event : Event
  pos : Nat
deriving DecidableEq, Repr

/-- The value a pure function or a type class returns (R102, R103, R120, R160; log entry 12). -/
inductive FnResult where
  | checksum (v : U16)
  | verified (ok : Bool)
  | decoded (r : DecodeResult)
  | classified (r : ClassResult)
deriving DecidableEq, Repr

/-- The reasons of the fault mark (R28). A reason is recorded in `State.faults` and the step goes on to a next
state, as R14 and R185 say; no step answers with the outcome `fault` (log entry 7). -/
inductive Fault where
  /-- A transaction other than RESET presented while `in_ready` = 0 (R283): NOP, FEED, RSVD and the marker bytes.
  Safe: the byte is not taken and the run has no observation. -/
  | feedWhileBusy
  /-- A transaction of a second producer (R284): the port. Safe: it is not applied. -/
  | concurrentFeed
  /-- Host op `11` (R185): RSVD. Safe: the state is unchanged but for the mark. -/
  | reservedOp
  /-- A configuration other than the one in force, after the first transaction (R286): the port. Safe: the
  configuration is unchanged. -/
  | configChanged
deriving DecidableEq, Repr

/-- Why a step has no next state. -/
inductive Refusal where
  /-- An instruction with no meaning yet: raised by an arm of `exec`. Safe. -/
  | notModelled (mnemonic : String)
  /-- A presented word that is no row of the opcode table: the port. Safe. -/
  | undecodable (e : DecodeError)
  /-- A row with a bit encoding presented by name instead of by its bits: the port. Safe. -/
  | hasEncoding
  /-- Operands outside the domain the spec gives the row (R102, R160): the type classes, CK_COMPUTE, CLASSIFY.
  Safe. -/
  | operandDomain
  /-- A CMD or UNKNOWN row whose registry condition does not hold (R69): CMD, UNKNOWN. Safe. -/
  | notSelected
  /-- An engine action, or an event row, that is not the engine's next action (R192): SKIP, LOCK, ACCEPT, REJECT
  and the four emitted event codes. Safe: the engine performs only what is enabled. -/
  | notEnabled
  /-- An event code that is never emitted and that a consumer refuses (R71, R167, V4): EV_UNKNOWN_TYPE, EV_RSVD.
  Safe. -/
  | neverEmitted (code : BitVec 3)
deriving DecidableEq, Repr

/-- The fault mark (R28): the set of reasons recorded so far, one bit each. -/
structure FaultMarks where
  feedWhileBusy : Bool
  concurrentFeed : Bool
  reservedOp : Bool
  configChanged : Bool
deriving DecidableEq, Repr

/-- What the outside world can present (R9, R180; log entry 10). -/
inductive Item where
  /-- A host transaction of a producer: the 10-bit command word (R73). -/
  | transaction (producer : Nat) (word : BitVec 10)
  /-- A marker byte of the stream, from a producer (R68; log entry 13). -/
  | marker (producer : Nat) (b : Byte)
  /-- A type field with its length and payload, for the classifier (R160; log entry 14). -/
  | typeField (type len : U16) (payload : List Byte)
  /-- An event code (R71; log entry 16). -/
  | event (code : BitVec 3)
  /-- A row that has no bit encoding, by name (R78). -/
  | named (i : Instr)
  /-- A configuration (R274, R286). -/
  | configure (p : Params)
  /-- The consumer takes the oldest event it has not taken (R285). -/
  | take
deriving DecidableEq, Repr

/-- The state of one DMC-RX instance (R20), with the model-level fault mark and ghost counter, the parameters in
force, and the two interfaces. -/
structure State where
  /-- R21. -/
  st : SyncState
  /-- The window, oldest byte first (R22). -/
  win : List Byte
  /-- The hunt-run flag (R24). -/
  hunt : Bool
  /-- The ghost stream position (R27). -/
  head : Nat
  /-- The fault mark (R28). -/
  faults : FaultMarks
  /-- ENDIAN, CKSUM and REG (R7), in a field so that a change of them can be recorded (R286; log entry 2). -/
  cfg : Params
  /-- Every event emitted since construction, oldest first (R190, R205; log entry 11). -/
  out : List Emission
  /-- How many events of `out` the consumer has taken (R285; log entry 11). -/
  taken : Nat
  /-- What has been presented and not yet taken in, oldest first (R49; log entry 10). -/
  pending : List Item
  /-- The producer of the first transaction, if there has been one (R284, R286; log entry 9). -/
  owner : Option Nat
  /-- The value the last pure function returned (log entry 12). -/
  result : Option FnResult
deriving DecidableEq, Repr

/-- The construction state (R271, R34) with the open parameters; nothing is presented (log entry 10). -/
def State.reset : State :=
  { st := .seek
    win := []
    hunt := false
    head := 0
    faults := { feedWhileBusy := false, concurrentFeed := false, reservedOp := false, configChanged := false }
    cfg := Config.params
    out := []
    taken := 0
    pending := []
    owner := none
    result := none }

end Sys2Proof.Machine
end

