-- ==== Sys2Proof/Machine/Ops.lean ====
section
/-! DEFINITION. The named operations over the window, the event list, the fault mark and the registers
(spec/00_scope.md R12 to R14, spec/10_state.md R22, R24, R27, R28), with error recovery (spec/60_exceptions.md
R246), which is what DMC-RX has in the place of taking an exception. -/

namespace Sys2Proof.Machine

/-- The byte at offset `i` of a sequence (R12). Past the end there is no byte and no rule reads there (R132); the
0 written here is read by no rule (log entry 19). -/
def byteAt (w : List Byte) (i : Nat) : Byte := w.getD i 0

/-- `MemRead(w, i, 2)` (R13). -/
def memRead16 (e : Endian) (w : List Byte) (i : Nat) : U16 :=
  match e with
  | .le => byteAt w (i + 1) ++ byteAt w i
  | .be => byteAt w i ++ byteAt w (i + 1)

/-- `MemRead(w, i, 4)` (R13). -/
def memRead32 (e : Endian) (w : List Byte) (i : Nat) : U32 :=
  match e with
  | .le => byteAt w (i + 3) ++ byteAt w (i + 2) ++ byteAt w (i + 1) ++ byteAt w i
  | .be => byteAt w i ++ byteAt w (i + 1) ++ byteAt w (i + 2) ++ byteAt w (i + 3)

/-- `wr16(v)`, the inverse of `MemRead` on 2 bytes (R13). -/
def wr16 (e : Endian) (v : U16) : List Byte :=
  match e with
  | .le => [v.extractLsb' 0 8, v.extractLsb' 8 8]
  | .be => [v.extractLsb' 8 8, v.extractLsb' 0 8]

/-- `wr32(v)`, the inverse of `MemRead` on 4 bytes (R13). -/
def wr32 (e : Endian) (v : U32) : List Byte :=
  match e with
  | .le => [v.extractLsb' 0 8, v.extractLsb' 8 8, v.extractLsb' 16 8, v.extractLsb' 24 8]
  | .be => [v.extractLsb' 24 8, v.extractLsb' 16 8, v.extractLsb' 8 8, v.extractLsb' 0 8]

/-- The capacity of the window, `WIN_CAP` (R6, R22). -/
def winCap : Nat := 2060

/-- The form the block's one writable store keeps: at most `WIN_CAP` bytes (R22, R23). A byte sequence has no
other way to be ill formed (log entry 19). -/
def Memory.wf (w : List Byte) : Bool := decide (w.length ≤ winCap)

/-- `MemWrite(win, b)`: append one byte to the window (R14). -/
def State.memWrite (s : State) (b : Byte) : State := { s with win := s.win ++ [b] }

/-- `drop(k, win)`, which advances the ghost `head` by `k` (R12, R27). -/
def State.dropBytes (s : State) (k : Nat) : State := { s with win := s.win.drop k, head := s.head + k }

/-- `emit E`: append the event to the result list, with the ghost position it is emitted at (R14, R201). -/
def State.emit (s : State) (e : Event) : State := { s with out := s.out ++ [⟨e, s.head⟩] }

/-- `emit` of an error, if one is reported. -/
def State.emitError (s : State) : Option FrameError → State
  | none => s
  | some e => s.emit (.error e)

/-- Write `st` and `hunt` (R21, R24). -/
def State.setSync (s : State) (st : SyncState) (hunt : Bool) : State := { s with st := st, hunt := hunt }

/-- Add a reason to a fault mark (R28). -/
def FaultMarks.add (m : FaultMarks) : Fault → FaultMarks
  | .feedWhileBusy => { m with feedWhileBusy := true }
  | .concurrentFeed => { m with concurrentFeed := true }
  | .reservedOp => { m with reservedOp := true }
  | .configChanged => { m with configChanged := true }

/-- Whether a reason stands in a fault mark (R28). -/
def FaultMarks.has (m : FaultMarks) : Fault → Bool
  | .feedWhileBusy => m.feedWhileBusy
  | .concurrentFeed => m.concurrentFeed
  | .reservedOp => m.reservedOp
  | .configChanged => m.configChanged

/-- `fault(reason)`: record the reason and nothing else (R14, R28; log entry 7). -/
def State.mark (s : State) (f : Fault) : State := { s with faults := s.faults.add f }

/-- Return a pure function's value (log entry 12). -/
def State.ret (s : State) (r : FnResult) : State := { s with result := some r }

/-- Recovery entry (R246), shared by SKIP and REJECT: report the error if it is to be reported, drop the window's
first byte, go on in SEEK with `hunt` = 1. Nothing is saved, and there is no return (R247). -/
def State.recover (s : State) (report : Option FrameError) : State :=
  ((s.emitError report).dropBytes 1).setSync .seek true

/-- What RESET writes: `st`, `win`, `hunt` and the ghost `head` (R184, R34). -/
def State.resetSync (s : State) : State := { s with st := .seek, win := [], hunt := false, head := 0 }

end Sys2Proof.Machine
end

