-- ==== Sys2Proof/Machine/Operands.lean ====
section
/-! DEFINITION. The fields of a frame, by their offsets from its first byte (spec/30_encoding.md R60 to R65). -/

namespace Sys2Proof.Machine

/-- The `id` field, offset 2 (R61). -/
def idField (e : Endian) (w : List Byte) : U32 := memRead32 e w 2

/-- The `type` field, offset 6 (R62). -/
def typeField (e : Endian) (w : List Byte) : U16 := memRead16 e w 6

/-- The `length` field, offset 8 (R63), as the count `L`. -/
def lengthField (e : Endian) (w : List Byte) : Nat := (memRead16 e w 8).toNat

/-- The payload, `L` bytes from offset 10 (R64). -/
def payloadField (w : List Byte) (len : Nat) : List Byte := (w.drop 10).take len

/-- The `checksum` field, offset `10 + L` (R65). -/
def checksumField (e : Endian) (w : List Byte) (len : Nat) : U16 := memRead16 e w (10 + len)

/-- The covered region, the `10 + L` bytes before the checksum field (R100). -/
def coveredRegion (w : List Byte) (len : Nat) : List Byte := w.take (10 + len)

/-- The ACK bit of a type field, `type[15]` (R62). -/
def ackBit (type : U16) : Bool := type.getLsbD 15

/-- The base code of a type field, `type[14:0]` (R62). -/
def baseCode (type : U16) : BitVec 15 := type.extractLsb' 0 15

end Sys2Proof.Machine
end

