-- ==== Sys2Proof/Machine/Checksum.lean ====
section
/-! DEFINITION. The checksum validator (spec/40_checksum.md): `compute`, `verify`, the reference instance of the
open parameter CKSUM, and the frame-building helper of spec/00_scope.md R16. -/

namespace Sys2Proof.Machine

/-- One of the eight shifts of CRC16_CCITT_FALSE (R106). -/
def crcShift (crc : U16) : U16 :=
  if crc.getLsbD 15 then (crc <<< 1) ^^^ 0x1021 else crc <<< 1

/-- `n` shifts (R106). -/
def crcShifts : Nat → U16 → U16
  | 0, crc => crc
  | n + 1, crc => crcShifts n (crcShift crc)

/-- Fold one byte into the running CRC (R106). -/
def crcByte (crc : U16) (b : Byte) : U16 := crcShifts 8 (crc ^^^ (b ++ 0#8))

/-- `CRC16_CCITT_FALSE` (R106): the reference instance, used by REF only. -/
def crc16CcittFalse (c : List Byte) : U16 := c.foldl crcByte 0xFFFF

/-- The function CKSUM is (R101). -/
def cksumFn : Cksum → List Byte → U16
  | .protocol => Config.cksum
  | .crc16CcittFalse => crc16CcittFalse

/-- `compute(marker, id, type, length, payload)` (R102). `len` is serialised as given. -/
def compute (p : Params) (marker : List Byte) (id : U32) (type len : U16) (payload : List Byte) : U16 :=
  cksumFn p.cksum (marker ++ wr32 p.endian id ++ wr16 p.endian type ++ wr16 p.endian len ++ payload)

/-- `verify(f)` (R103): it trusts the length of the sequence and reads no field but the last two bytes. -/
def verify (p : Params) (f : List Byte) : Bool :=
  if f.length < 12 ∨ 2060 < f.length then false
  else cksumFn p.cksum (f.take (f.length - 2)) == memRead16 p.endian f (f.length - 2)

/-- `FRAME` with an explicit length field and checksum field (R16): the general helper. -/
def frameBytes (e : Endian) (id : U32) (type len : U16) (payload : List Byte) (ck : U16) : List Byte :=
  [0x44, 0x46] ++ wr32 e id ++ wr16 e type ++ wr16 e len ++ payload ++ wr16 e ck

/-- `FRAME_L(id, type, L, payload)` (R16): the checksum field is right, the length field is as given. -/
def frameL (p : Params) (id : U32) (type len : U16) (payload : List Byte) : List Byte :=
  frameBytes p.endian id type len payload (compute p [0x44, 0x46] id type len payload)

/-- `FRAME(id, type, payload)` (R16). It is not part of DMC-RX; statements and tests build frames with it. -/
def frame (p : Params) (id : U32) (type : U16) (payload : List Byte) : List Byte :=
  frameL p id type (BitVec.ofNat 16 payload.length) payload

/-- `FRAME_CK(id, type, payload, c)` (R16). -/
def frameCk (p : Params) (id : U32) (type : U16) (payload : List Byte) (ck : U16) : List Byte :=
  frameBytes p.endian id type (BitVec.ofNat 16 payload.length) payload ck

/-- CK_COMPUTE (R102): the value is returned and nothing else is written. A payload of more than 2048 bytes is no
operand of `compute` (log entry 17). -/
def execCkCompute (marker0 marker1 : Byte) (id : U32) (type len : U16) (payload : List Byte) (s : State) :
    Host.Outcome State Fault Refusal :=
  if payload.length ≤ 2048 then
    .next (s.ret (.checksum (compute s.cfg [marker0, marker1] id type len payload)))
  else .refused .operandDomain

/-- CK_VERIFY (R103): the answer is returned and nothing else is written. -/
def execCkVerify (f : List Byte) (s : State) : Host.Outcome State Fault Refusal :=
  .next (s.ret (.verified (verify s.cfg f)))

end Sys2Proof.Machine
end

