-- ==== Sys2Proof/Machine/Classifier.lean ====
section
/-! DEFINITION. The type classifier (spec/42_type_classifier.md): `classify`, its three classes, and the rows of
the opcode table that stand for them. -/

namespace Sys2Proof.Machine

/-- The ACK class (R161): exactly one payload byte, the response code, whatever the base code is. -/
def classifyAck (len : Nat) (payload : List Byte) : ClassResult :=
  if len = 1 then .ok .ack payload.head? else .bad

/-- The CMD class (R162): exactly the registered size. -/
def classifyCmd (size : Fin 2049) (len : Nat) : ClassResult :=
  if len = size.val then .ok .cmd none else .bad

/-- The UNKNOWN class (R163): any length, no error. -/
def classifyUnknown : ClassResult := .ok .unknown none

/-- `classify(ty, L, pl)` (R160): the ACK bit first, then the registry. -/
def classify (reg : Registry) (type : U16) (len : Nat) (payload : List Byte) : ClassResult :=
  if ackBit type then classifyAck len payload
  else
    match registrySize reg (baseCode type) with
    | some size => classifyCmd size len
    | none => classifyUnknown

/-- Return a class result, for operands in the classifier's domain (R160; log entry 17). -/
def State.retClass (s : State) (len : U16) (payload : List Byte) (r : ClassResult) :
    Host.Outcome State Fault Refusal :=
  if classOperandsOk len payload then .next (s.ret (.classified r)) else .refused .operandDomain

/-- ACK (R161). The base code is not looked up, so it does not matter. -/
def execAck (_base : BitVec 15) (len : U16) (payload : List Byte) (s : State) : Host.Outcome State Fault Refusal :=
  s.retClass len payload (classifyAck len.toNat payload)

/-- CMD_HI (R162, R165): Hi is registered in every registry. -/
def execCmdHi (len : U16) (payload : List Byte) (s : State) : Host.Outcome State Fault Refusal :=
  s.retClass len payload (classifyCmd s.cfg.reg.hiSize len.toNat)

/-- CMD (R162): the row of a registered base code. -/
def execCmd (base : BitVec 15) (len : U16) (payload : List Byte) (s : State) : Host.Outcome State Fault Refusal :=
  match registrySize s.cfg.reg base with
  | some size => s.retClass len payload (classifyCmd size len.toNat)
  | none => .refused .notSelected

/-- UNKNOWN (R163): the row of a base code that is not registered. -/
def execUnknown (base : BitVec 15) (len : U16) (payload : List Byte) (s : State) :
    Host.Outcome State Fault Refusal :=
  match registrySize s.cfg.reg base with
  | some _ => .refused .notSelected
  | none => s.retClass len payload classifyUnknown

/-- CLASSIFY (R160): the result is returned and nothing else is written. -/
def execClassify (type len : U16) (payload : List Byte) (s : State) : Host.Outcome State Fault Refusal :=
  s.retClass len payload (classify s.cfg.reg type len.toNat payload)

end Sys2Proof.Machine
end

