-- ==== Sys2Proof/Machine/Decoder.lean ====
section
/-! DEFINITION. The frame decoder (spec/41_frame_decoder.md): the pure function `decode`. -/

namespace Sys2Proof.Machine

/-- The message record of a frame whose checksum matched and whose class was accepted (R70). -/
def messageOf (p : Params) (w : List Byte) (len : Nat) (cls : FrameClass) (rc : Option Byte) : Message :=
  { id := idField p.endian w
    type := typeField p.endian w
    ack := ackBit (typeField p.endian w)
    base := baseCode (typeField p.endian w)
    cls := cls
    len := len
    payload := payloadField w len
    rc := rc
    consumed := 12 + len }

/-- Field extraction and classification, the last step of `decode` (R128). -/
def decodeFields (p : Params) (w : List Byte) (len : Nat) : DecodeResult :=
  match classify p.reg (typeField p.endian w) len (payloadField w len) with
  | .ok cls rc => .complete (messageOf p w len cls rc) (12 + len)
  | .bad => .invalid .lengthMismatch

/-- Phase 2 (R126 to R128): the whole declared frame, its checksum before its shape. -/
def decodeBody (p : Params) (w : List Byte) (len : Nat) : DecodeResult :=
  if w.length < 12 + len then .incomplete
  else if cksumFn p.cksum (coveredRegion w len) ≠ checksumField p.endian w len then .invalid .checksumMismatch
  else decodeFields p w len

/-- `decode(w)` (R121): phase 1 here (R122 to R125), then phase 2. -/
def decodeFrame (p : Params) (w : List Byte) : DecodeResult :=
  if 1 ≤ w.length ∧ byteAt w 0 ≠ 0x44 then .invalid .badMarker
  else if 2 ≤ w.length ∧ byteAt w 1 ≠ 0x46 then .invalid .badMarker
  else if w.length < 10 then .incomplete
  else if 2048 < lengthField p.endian w then .invalid .lengthMismatch
  else decodeBody p w (lengthField p.endian w)

/-- DECODE (R120, R121): the result is returned and nothing else is written. -/
def execDecode (buffer : List Byte) (s : State) : Host.Outcome State Fault Refusal :=
  .next (s.ret (.decoded (decodeFrame s.cfg buffer)))

end Sys2Proof.Machine
end

