-- ==== Sys2Proof/Machine/Flags.lean ====
section
/-! DEFINITION. The flags of DMC-RX (`st`, `hunt`, and the output `in_ready`) and the numeric codes of what it
reports (spec/10_state.md R21, R24, R29; spec/30_encoding.md R69, R71, R72). -/

namespace Sys2Proof.Machine

/-- The bit `st` holds (R21). -/
def SyncState.code : SyncState → BitVec 1
  | .seek => 0
  | .acc => 1

/-- The class code (R69); code 3 is reserved and is no class. -/
def FrameClass.code : FrameClass → BitVec 2
  | .cmd => 0
  | .ack => 1
  | .unknown => 2

/-- The error's event code (R71, R241). -/
def FrameError.code : FrameError → BitVec 3
  | .badMarker => 1
  | .checksumMismatch => 2
  | .lengthMismatch => 3
  | .unknownType => 4

/-- The event code (R71); codes 5 to 7 are reserved and are no event. -/
def Event.code : Event → BitVec 3
  | .decoded _ => 0
  | .error e => e.code

/-- The status code (R72); status 3 is reserved and is no result. -/
def DecodeResult.status : DecodeResult → BitVec 2
  | .complete _ _ => 0
  | .incomplete => 1
  | .invalid _ => 2

/-- The name the consumer gives a message's response code (R166): its `rc` through RC_NAME, if it has one. -/
def Message.rcName (m : Message) : Option ResponseCode := m.rc.bind Config.rcName

/-- What a SKIP reports (R193, R242): BadMarker exactly when `hunt` is 0. -/
def skipReport (hunt : Bool) : Option FrameError := if hunt then none else some .badMarker

/-- In SEEK the engine waits for any byte or for the second marker byte (R187). -/
def seekWaits (w : List Byte) : Bool := w.isEmpty || decide (w.length = 1 ∧ byteAt w 0 = 0x44)

/-- Quiescence (R187). -/
def State.quiescent (s : State) : Bool :=
  match s.st with
  | .seek => seekWaits s.win
  | .acc => decide (decodeFrame s.cfg s.win = .incomplete)

/-- The output `in_ready` (R29). -/
def State.inReady (s : State) : Bool := s.quiescent

end Sys2Proof.Machine
end

