-- ==== Sys2Proof/Machine/Engine.lean ====
section
/-! DEFINITION. The engine of the stream synchronizer (spec/43_synchronizer.md R186 to R197): which action is
enabled, what each action does, and the drain. -/

namespace Sys2Proof.Machine

/-- The four engine actions (R186), with what the decoder gave them. -/
inductive Action where
  | skip
  | lock
  | accept (m : Message) (k : Nat)
  | reject (e : FrameError)
deriving DecidableEq, Repr

/-- Action selection in SEEK (R192, R193, R194). -/
def enabledSeek (w : List Byte) : Option Action :=
  if seekWaits w then none
  else if byteAt w 0 ≠ 0x44 then some .skip
  else if byteAt w 1 ≠ 0x46 then some .skip
  else some .lock

/-- Action selection in ACC (R192, R195, R196, R197). -/
def enabledAcc (r : DecodeResult) : Option Action :=
  match r with
  | .incomplete => none
  | .complete m k => some (.accept m k)
  | .invalid e => some (.reject e)

/-- `enabled(S)` (R192). -/
def State.enabled (s : State) : Option Action :=
  match s.st with
  | .seek => enabledSeek s.win
  | .acc => enabledAcc (decodeFrame s.cfg s.win)

/-- SKIP (R193). -/
def State.skip (s : State) : State := s.recover (skipReport s.hunt)

/-- LOCK (R194): `hunt` and the window stay. -/
def State.lock (s : State) : State := s.setSync .acc s.hunt

/-- ACCEPT(m, k) (R196). -/
def State.accept (s : State) (m : Message) (k : Nat) : State :=
  ((s.emit (.decoded m)).dropBytes k).setSync .seek false

/-- REJECT(e) (R197). -/
def State.reject (s : State) (e : FrameError) : State := s.recover (some e)

/-- Perform an action (R188). -/
def State.perform (s : State) : Action → State
  | .skip => s.skip
  | .lock => s.lock
  | .accept m k => s.accept m k
  | .reject e => s.reject e

/-- The event an action emits, given `hunt` before it (R193, R194, R196, R197). -/
def Action.event (hunt : Bool) : Action → Option Event
  | .skip => (skipReport hunt).map .error
  | .lock => none
  | .accept m _ => some (.decoded m)
  | .reject e => some (.error e)

/-- `mu(S) = 2n + (1 if st = SEEK else 0)` (R189), which every action lowers. -/
def State.mu (s : State) : Nat := 2 * s.win.length + (match s.st with | .seek => 1 | .acc => 0)

/-- At most `n` enabled actions, one at a time (R188). -/
def State.drainUpTo : Nat → State → State
  | 0, s => s
  | n + 1, s =>
    match s.enabled with
    | none => s
    | some a => State.drainUpTo n (s.perform a)

/-- `drain(S)` (R188). `mu(S)` actions are always enough (R189; log entry 18). -/
def State.drain (s : State) : State := s.drainUpTo s.mu

/-- SKIP as a row: the engine's next action, if it is a SKIP (R192; log entry 16). -/
def execSkip (s : State) : Host.Outcome State Fault Refusal :=
  match s.enabled with
  | some .skip => .next s.skip
  | _ => .refused .notEnabled

/-- LOCK as a row: the engine's next action, if it is a LOCK (R192; log entry 16). -/
def execLock (s : State) : Host.Outcome State Fault Refusal :=
  match s.enabled with
  | some .lock => .next s.lock
  | _ => .refused .notEnabled

/-- ACCEPT as a row: the engine's next action, if it is an ACCEPT (R192; log entry 16). -/
def execAccept (s : State) : Host.Outcome State Fault Refusal :=
  match s.enabled with
  | some (.accept m k) => .next (s.accept m k)
  | _ => .refused .notEnabled

/-- REJECT as a row: the engine's next action, if it is a REJECT (R192; log entry 16). -/
def execReject (s : State) : Host.Outcome State Fault Refusal :=
  match s.enabled with
  | some (.reject e) => .next (s.reject e)
  | _ => .refused .notEnabled

end Sys2Proof.Machine
end

