-- ==== Sys2Proof/Machine/Events.lean ====
section
/-! DEFINITION. The event codes as rows (spec/30_encoding.md R71): the engine action that emits an event with
that code (log entry 16), and the codes that are never emitted. -/

namespace Sys2Proof.Machine

/-- The engine's next action, if it emits an event with this code; otherwise nothing emits it now (R71, R192). -/
def State.emitting (s : State) (code : BitVec 3) : Host.Outcome State Fault Refusal :=
  match s.enabled with
  | none => .refused .notEnabled
  | some a => if (a.event s.hunt).map Event.code = some code then .next (s.perform a) else .refused .notEnabled

/-- EV_DECODED, emitted by ACCEPT (R196). -/
def execEvDecoded (s : State) : Host.Outcome State Fault Refusal := s.emitting 0

/-- EV_BAD_MARKER, emitted by a SKIP that reports (R193). -/
def execEvBadMarker (s : State) : Host.Outcome State Fault Refusal := s.emitting 1

/-- EV_CHECKSUM_MISMATCH, emitted by REJECT (R197). -/
def execEvChecksumMismatch (s : State) : Host.Outcome State Fault Refusal := s.emitting 2

/-- EV_LENGTH_MISMATCH, emitted by REJECT (R197). -/
def execEvLengthMismatch (s : State) : Host.Outcome State Fault Refusal := s.emitting 3

/-- EV_UNKNOWN_TYPE (R167): no rule emits it. -/
def execEvUnknownType (_s : State) : Host.Outcome State Fault Refusal := .refused (.neverEmitted 4)

/-- EV_RSVD (R71): never emitted, and a consumer that is given one refuses it (spec/93_implementation_defined.md V4). -/
def execEvRsvd (low : BitVec 2) (_s : State) : Host.Outcome State Fault Refusal :=
  .refused (.neverEmitted (1#1 ++ low))

end Sys2Proof.Machine
end

