-- ==== Sys2Proof/Machine/HostPort.lean ====
section
/-! DEFINITION. The host transactions NOP, FEED, RESET and the reserved op (spec/43_synchronizer.md R180 to R185),
with the busy hazard (spec/70_reset_and_hazards.md R283), and the marker bytes as bytes of the stream. -/

namespace Sys2Proof.Machine

/-- The busy hazard, checked before the op is read (R181, R283): a transaction other than RESET is taken only
while `in_ready` = 1; otherwise the mark FeedWhileBusy is all it leaves (log entry 8). -/
def State.whenReady (s s' : State) : State := if s.inReady then s' else s.mark .feedWhileBusy

/-- `FEED(S, b)` (R183): append the byte, then drain. -/
def State.feedByte (s : State) (b : Byte) : State := s.whenReady (s.memWrite b).drain

/-- NOP (R182). -/
def execNop (_data : Byte) (s : State) : Host.Outcome State Fault Refusal := .next (s.whenReady s)

/-- FEED b (R183). -/
def execFeed (b : Byte) (s : State) : Host.Outcome State Fault Refusal := .next (s.feedByte b)

/-- RESET (R184), the one transaction allowed while `in_ready` = 0 (R283, R287). -/
def execReset (_data : Byte) (s : State) : Host.Outcome State Fault Refusal := .next s.resetSync

/-- RSVD (R185): the mark ReservedOp, the state otherwise unchanged (log entry 7). -/
def execRsvd (_data : Byte) (s : State) : Host.Outcome State Fault Refusal :=
  .next (s.whenReady (s.mark .reservedOp))

/-- MARKER_D (R122): the stream byte `0x44` (log entry 13). -/
def execMarkerD (s : State) : Host.Outcome State Fault Refusal := .next (s.feedByte 0x44)

/-- MARKER_F (R123): the stream byte `0x46` (log entry 13). -/
def execMarkerF (s : State) : Host.Outcome State Fault Refusal := .next (s.feedByte 0x46)

end Sys2Proof.Machine
end

