-- ==== Sys2Proof/Machine/Dispatch.lean ====
section
/-! DEFINITION. The meaning of every row of the opcode table, one arm each. -/

namespace Sys2Proof.Machine

def exec (i : Instr) (s : State) : Host.Outcome State Fault Refusal :=
  match i with
  -- host transactions
  | .nop data => Sys2Proof.Machine.execNop data s
  | .feed b => Sys2Proof.Machine.execFeed b s
  | .reset data => Sys2Proof.Machine.execReset data s
  | .rsvd data => Sys2Proof.Machine.execRsvd data s
  -- type classes
  | .ack base len payload => Sys2Proof.Machine.execAck base len payload s
  | .cmdHi len payload => Sys2Proof.Machine.execCmdHi len payload s
  | .cmd base len payload => Sys2Proof.Machine.execCmd base len payload s
  | .unknown base len payload => Sys2Proof.Machine.execUnknown base len payload s
  -- marker bytes
  | .markerD => Sys2Proof.Machine.execMarkerD s
  | .markerF => Sys2Proof.Machine.execMarkerF s
  -- event codes
  | .evDecoded => Sys2Proof.Machine.execEvDecoded s
  | .evBadMarker => Sys2Proof.Machine.execEvBadMarker s
  | .evChecksumMismatch => Sys2Proof.Machine.execEvChecksumMismatch s
  | .evLengthMismatch => Sys2Proof.Machine.execEvLengthMismatch s
  | .evUnknownType => Sys2Proof.Machine.execEvUnknownType s
  | .evRsvd low => Sys2Proof.Machine.execEvRsvd low s
  -- engine actions
  | .skip => Sys2Proof.Machine.execSkip s
  | .lock => Sys2Proof.Machine.execLock s
  | .accept => Sys2Proof.Machine.execAccept s
  | .reject => Sys2Proof.Machine.execReject s
  -- pure functions
  | .ckCompute marker0 marker1 id type len payload => Sys2Proof.Machine.execCkCompute marker0 marker1 id type len payload s
  | .ckVerify frame => Sys2Proof.Machine.execCkVerify frame s
  | .decode buffer => Sys2Proof.Machine.execDecode buffer s
  | .classify type len payload => Sys2Proof.Machine.execClassify type len payload s

end Sys2Proof.Machine
end

