-- ==== Sys2Proof/Machine/Fetch.lean ====
section
/-! DEFINITION. What the block takes in at one step (spec/00_scope.md R9, R10): the oldest thing presented, the
hazards of the port (spec/70_reset_and_hazards.md R284, R286), and the host's word for one step. -/

namespace Sys2Proof.Machine

/-- What taking in the oldest presented thing comes to: it is dealt with at the port, it is an instruction to
run, or it is refused. -/
inductive Fetched where
  | done (s : State)
  | run (i : Instr) (s : State)
  | stop (r : Refusal)
deriving DecidableEq, Repr

/-- One producer (R284): the first transaction's producer owns the block, and a transaction of another is the
fault ConcurrentFeed and is not applied (log entry 9). -/
def State.fromProducer (s : State) (producer : Nat) (i : Instr) : Fetched :=
  match s.owner with
  | none => .run i { s with owner := some producer }
  | some first => if first = producer then .run i s else .done (s.mark .concurrentFeed)

/-- Whether two registries are the same partial map (R7). The list of entries is the model's way of writing the
map, so its order, and entries that are never read, do not count (DESIGN CHOICE, log entry 26). Outside the codes
listed here neither map is defined. -/
def sameRegistry (r q : Registry) : Bool :=
  ((1 : BitVec 15) :: (r.others ++ q.others).map Prod.fst).all fun base =>
    decide (registrySize r base = registrySize q base)

/-- Whether a presented configuration is the one in force (R286): ENDIAN and CKSUM by name, REG as a partial map
(DESIGN CHOICE, log entry 26). -/
def sameParams (p q : Params) : Bool :=
  decide (p.endian = q.endian) && decide (p.cksum = q.cksum) && sameRegistry p.reg q.reg

/-- The configuration is fixed before the first transaction (R274) and changing it later is the fault
ConfigChanged (R286; log entry 2). What counts as a change is the model's choice (log entry 26). -/
def State.configure (s : State) (p : Params) : State :=
  match s.owner with
  | none => { s with cfg := p }
  | some _ => if sameParams p s.cfg then s else s.mark .configChanged

/-- The consumer takes the oldest event it has not taken, if there is one (R285). -/
def State.takeEvent (s : State) : State := { s with taken := min (s.taken + 1) s.out.length }

/-- Run what a decoder read, or refuse the word by name. -/
def State.decoded (s : State) : Except DecodeError Instr → Fetched
  | .ok i => .run i s
  | .error e => .stop (.undecodable e)

/-- Take in one presented thing; `s` is the state without it. -/
def State.receive (s : State) : Item → Fetched
  | .transaction producer word => s.fromProducer producer (decodeCommand word)
  | .marker producer b =>
    match decodeMarker b with
    | .ok i => s.fromProducer producer i
    | .error e => .stop (.undecodable e)
  | .typeField type len payload => s.decoded (decodeType s.cfg.reg type len payload)
  | .event code => .run (decodeEvent code) s
  | .named i => if i.unencoded then .run i s else .stop .hasEncoding
  | .configure p => .done (s.configure p)
  | .take => .done s.takeEvent

/-- Take in the oldest presented thing. With nothing presented the block holds its state (R258). -/
def State.fetch (s : State) : Fetched :=
  match s.pending with
  | [] => .done s
  | item :: rest => State.receive { s with pending := rest } item

/-- How a decoded word is presented at the port, by the producer that owns the block. -/
def itemOf (producer : Nat) : TableWord → Item
  | .cmd word => .transaction producer word
  | .typeField type len payload => .typeField type len payload
  | .byte b => .marker producer b
  | .event code => .event code

/-- The window that makes the engine's next action emit the event with this code, under REF (log entry 24):
V-DEC-10, V-SYN-1, V-DEC-14 and V-DEC-22 of spec/95_test_vectors.md. -/
def eventWindow (code : BitVec 3) : List Byte :=
  if code = 0 then [0x44, 0x46, 0x01, 0x00, 0x00, 0x00, 0x01, 0x00, 0x00, 0x00, 0x20, 0x0A]
  else if code = 1 then [0x13]
  else if code = 2 then
    [0x44, 0x46, 0x78, 0x56, 0x34, 0x12, 0x05, 0x00, 0x03, 0x00, 0x61, 0x62, 0x63, 0x7C, 0xFC]
  else if code = 3 then [0x44, 0x46, 0x00, 0x00, 0x00, 0x00, 0x05, 0x00, 0xFF, 0xFF]
  else []

/-- What selects a row that its word alone does not select (log entry 24): the registry for a type field, the
window for MARKER_F and for an event code. -/
def State.select (s : State) : TableWord → State
  | .cmd _ => s
  | .typeField _ _ _ => { s with cfg := { s.cfg with reg := hiOnlyRegistry } }
  | .byte b => if b = 0x46 then { s with st := .seek, win := [0x44] } else s
  | .event code =>
    { s with
      st := if code = 1 then .seek else .acc
      win := eventWindow code
      hunt := false
      cfg := Config.ref }

/-- Present a word as the next thing the block takes in, with what selects its row. -/
def State.presentWord (s : State) (word : TableWord) : State :=
  { s.select word with pending := itemOf (s.owner.getD 0) word :: s.pending }

end Sys2Proof.Machine
end

