-- ==== Sys2Proof/Machine/Step.lean ====
section
/-! DEFINITION. One step of the machine (spec/00_scope.md R10, spec/43_synchronizer.md R181): take in the oldest
presented thing and run it. -/

namespace Sys2Proof.Machine

/-- One step. -/
def step (s : State) : Host.Outcome State Fault Refusal :=
  match s.fetch with
  | .done t => .next t
  | .run i t => exec i t
  | .stop r => .refused r

/-- `s` with the instruction whose bits are `w` presented next, and its row selected (log entries 15 and 24). -/
def State.withFetchWord (s : State) (nbits w : Nat) : State :=
  match tableWord nbits w with
  | none => s
  | some word => s.presentWord word

end Sys2Proof.Machine
end

