-- ==== Sys2Proof/Safety.lean ====
section
/-! DEFINITION. What claims are stated in: the observation of a run (spec/43_synchronizer.md R205), the
quiescent-state invariant (spec/10_state.md R26), single-bit sensitivity (spec/40_checksum.md R101), the feed of a
chunk (R198), and what an event covers of the stream (R201). -/

namespace Sys2Proof.Machine

/-- The next state of an outcome, if it has one. -/
def nextOf (o : Host.Outcome State Fault Refusal) : Option State :=
  match o with
  | .next s => some s
  | .fault _ => none
  | .refused _ => none

/-- The refusal of an outcome, if it is one. -/
def refusalOf (o : Host.Outcome State Fault Refusal) : Option Refusal :=
  match o with
  | .next _ => none
  | .fault _ => none
  | .refused r => some r

/-- No reason stands in the fault mark: the premise "no fault" (R205). -/
def State.unmarked (s : State) : Bool :=
  !(s.faults.feedWhileBusy || s.faults.concurrentFeed || s.faults.reservedOp || s.faults.configChanged)

/-- What a run shows (R205): the events, `st`, `win`, `hunt`. -/
structure Observation where
  events : List Event
  st : SyncState
  win : List Byte
  hunt : Bool
deriving DecidableEq, Repr

/-- The observation of a run that ended here; a run with a fault mark has none (R28, R205). -/
def State.observe (s : State) : Option Observation :=
  if s.unmarked then some ⟨s.out.map Emission.event, s.st, s.win, s.hunt⟩ else none

/-- The window begins with the marker (R26, R44). -/
def startsWithMarker (w : List Byte) : Bool := decide (w.take 2 = [0x44, 0x46])

/-- The quiescent-state invariant (R26): (a) waiting in SEEK, or (b) waiting in ACC on a candidate. -/
def State.waiting (s : State) : Bool :=
  match s.st with
  | .seek => seekWaits s.win
  | .acc => startsWithMarker s.win && decide (decodeFrame s.cfg s.win = .incomplete)

/-- The event codes that are never produced (R71, R75, R167): 4 and up. -/
def Event.reserved (e : Event) : Bool := decide (4 ≤ e.code.toNat)

/-- What every step keeps. The block waits as R26 says; before the first transaction nothing has been fed, so the
configuration can still be set (R274); the consumer has taken no event that was not emitted (R285); and no event
has a reserved code (R75). -/
structure State.Inv (s : State) : Prop where
  waiting : s.waiting = true
  fresh : s.owner = none → s.st = .seek ∧ s.win = []
  taken : s.taken ≤ s.out.length
  codes : ∀ e ∈ s.out, e.event.reserved = false

/-- Flip bit `j` of byte `i` of a sequence. -/
def flipBit (w : List Byte) (i j : Nat) : List Byte := w.set i (byteAt w i ^^^ (1#8 <<< j))

/-- Property P2 of CKSUM (R101): flipping exactly one bit of a covered region changes the checksum. -/
def SingleBitSensitive (f : List Byte → U16) : Prop :=
  ∀ (c : List Byte) (i j : Nat), 10 ≤ c.length → c.length ≤ 2058 → i < c.length → j < 8 → f (flipBit c i j) ≠ f c

/-- `feed(bytes)`: the sequence of FEED transactions of its bytes (R198). -/
def feedAll : List Byte → State → Host.Outcome State Fault Refusal
  | [], s => .next s
  | b :: bs, s =>
    match exec (.feed b) s with
    | .next t => feedAll bs t
    | .fault r => .fault r
    | .refused r => .refused r

/-- FEEDS (R77): the transactions of a list of bytes, for one producer. -/
def feedsItems (producer : Nat) (bs : List Byte) : List Item := bs.map fun b => .transaction producer (1#2 ++ b)

/-- How many stream bytes an event concerns (R201): a decoded message its whole frame, an error the one byte its
action drops. -/
def Event.span : Event → Nat
  | .decoded m => m.consumed
  | .error _ => 1

/-- The stream position just after what an event concerns (R201, R202). -/
def Emission.endPos (e : Emission) : Nat := e.pos + e.event.span

/-- `n` engine actions lead from one state to another (R186, R188): each is the enabled one. -/
def ActionsLead : Nat → State → State → Prop
  | 0, s, t => s = t
  | n + 1, s, t => ∃ a, s.enabled = some a ∧ ActionsLead n (s.perform a) t

end Sys2Proof.Machine
end

