-- ==== Sys2Proof/Certificates/Slice0/Obligations.lean ====
section
/-! DEFINITION. The statements for the provers, from the numbered rules of spec/. -/

open Sys2Proof Sys2Proof.Machine

/-! ### Reset and the observation -/

/-- R34 and R271: the construction state. The parameters and the model's own fields are not part of it. -/
def Obligations.ConstructionStateAsTheSpecGives : Prop :=
  State.reset.st = .seek ∧ State.reset.win = [] ∧ State.reset.hunt = false ∧ State.reset.head = 0 ∧
    (∀ f, State.reset.faults.has f = false) ∧ State.reset.inReady = true

/-- R28, R205: a run with any reason in its fault mark has no observation; one with none shows its events, in
order, and the final `st`, `win` and `hunt`. -/
def Obligations.ObservationOfARun : Prop :=
  ∀ (s : State),
    (∀ f, s.faults.has f = true → s.observe = none) ∧
    ((∀ f, s.faults.has f = false) →
      s.observe = some { events := s.out.map Emission.event, st := s.st, win := s.win, hunt := s.hunt })

/-! ### Host transactions -/

/-- R182: NOP, whatever its ignored data bits are. -/
def Obligations.NopLeavesTheWholeState : Prop :=
  ∀ (data : Byte) (s : State), s.inReady = true → exec (.nop data) s = .next s

/-- R184: RESET writes `st`, `win`, `hunt`, `head` and nothing else, emits nothing, is taken whether or not the
block is ready, and is idempotent. -/
def Obligations.ResetWritesTheResetValues : Prop :=
  ∀ (data : Byte) (s : State),
    exec (.reset data) s = .next { s with st := .seek, win := [], hunt := false, head := 0 } ∧
    ∀ (again : Byte) (t : State), exec (.reset data) s = .next t → exec (.reset again) t = .next t

/-- R185: the reserved op leaves the mark ReservedOp and the state otherwise unchanged. -/
def Obligations.ReservedOpLeavesOnlyItsMark : Prop :=
  ∀ (data : Byte) (s : State), s.inReady = true →
    exec (.rsvd data) s = .next { s with faults := { s.faults with reservedOp := true } }

/-- R283: while `in_ready` = 0, NOP, FEED and the reserved op leave the mark FeedWhileBusy and nothing else; the
byte is not taken. The marker rows are bytes of the stream and do the same (the model's choice, log entry 13). -/
def Obligations.BusyTransactionLeavesOnlyItsMark : Prop :=
  ∀ (data b : Byte) (s : State), s.inReady = false →
    (∀ i ∈ [Instr.nop data, .feed b, .rsvd data, .markerD, .markerF],
      exec i s = .next { s with faults := { s.faults with feedWhileBusy := true } })

/-- R183, R188, R189: FEED appends its byte and performs the enabled actions, at most 4121 of them, until no
action is enabled. -/
def Obligations.FeedAppendsAndRunsToQuiescence : Prop :=
  ∀ (b : Byte) (s : State), s.inReady = true →
    ∃ (t : State) (n : Nat), exec (.feed b) s = .next t ∧ n ≤ 4121 ∧
      ActionsLead n { s with win := s.win ++ [b] } t ∧ t.inReady = true

/-- The frame of FEED: the window only loses bytes at its old end, `head` counts them, the events so far stay and
the new ones follow them, and nothing else but `st` and `hunt` is written. MARKER_D and MARKER_F are FEED of their
byte in every state. -/
def Obligations.FeedFrame : Prop :=
  ∀ (b : Byte) (s : State), s.inReady = true →
    exec .markerD s = exec (.feed 0x44) s ∧ exec .markerF s = exec (.feed 0x46) s ∧
    ∃ (t : State) (k : Nat) (evs : List Emission), exec (.feed b) s = .next t ∧
      k ≤ s.win.length + 1 ∧ t.win = (s.win ++ [b]).drop k ∧ t.head = s.head + k ∧ t.out = s.out ++ evs ∧
      t.faults = s.faults ∧ t.cfg = s.cfg ∧ t.taken = s.taken ∧ t.pending = s.pending ∧ t.owner = s.owner ∧
      t.result = s.result

/-- A byte other than `0x44` fed to an empty window in SEEK is skipped, and reported once per hunt run. -/
def Obligations.FeedOfAStrayByteIsSkipped : Prop :=
  ∀ (b : Byte) (s : State), s.st = .seek → s.win = [] → b ≠ 0x44 →
    exec (.feed b) s = .next { s with
      head := s.head + 1
      hunt := true
      out := if s.hunt then s.out else s.out ++ [⟨.error .badMarker, s.head⟩] }

/-- MARKER_D where it is frame byte 0, and MARKER_F where it is frame byte 1 (which locks); in every state each
does what FEED of that byte does. -/
def Obligations.MarkerBytesOpenACandidate : Prop :=
  ∀ (s : State), s.st = .seek →
    (s.win = [] → exec .markerD s = .next { s with win := [0x44] } ∧
      exec (.feed 0x44) s = .next { s with win := [0x44] }) ∧
    (s.win = [0x44] → exec .markerF s = .next { s with st := .acc, win := [0x44, 0x46] } ∧
      exec (.feed 0x46) s = .next { s with st := .acc, win := [0x44, 0x46] })

/-! ### Engine actions -/

/-- R193: SKIP, on both forms of its condition. -/
def Obligations.SkipDropsOneByteAndReportsOnce : Prop :=
  ∀ (s : State), s.st = .seek →
    ((1 ≤ s.win.length ∧ byteAt s.win 0 ≠ 0x44) ∨
      (2 ≤ s.win.length ∧ byteAt s.win 0 = 0x44 ∧ byteAt s.win 1 ≠ 0x46)) →
    exec .skip s = .next { s with
      win := s.win.drop 1
      head := s.head + 1
      hunt := true
      out := if s.hunt then s.out else s.out ++ [⟨.error .badMarker, s.head⟩] }

/-- R194: LOCK. -/
def Obligations.LockBeginsACandidate : Prop :=
  ∀ (s : State), s.st = .seek → 2 ≤ s.win.length → byteAt s.win 0 = 0x44 → byteAt s.win 1 = 0x46 →
    exec .lock s = .next { s with st := .acc }

/-- R196: ACCEPT. -/
def Obligations.AcceptEmitsAndDropsTheFrame : Prop :=
  ∀ (s : State) (m : Message) (k : Nat), s.st = .acc → decodeFrame s.cfg s.win = .complete m k →
    12 ≤ k ∧ k ≤ 2060 ∧
    exec .accept s = .next { s with
      win := s.win.drop k
      head := s.head + k
      st := .seek
      hunt := false
      out := s.out ++ [⟨.decoded m, s.head⟩] }

/-- R197: REJECT, and which errors it can report on a window that begins with the marker. -/
def Obligations.RejectReportsAndDropsOneByte : Prop :=
  ∀ (s : State) (e : FrameError), s.st = .acc → decodeFrame s.cfg s.win = .invalid e →
    exec .reject s = .next { s with
      win := s.win.drop 1
      head := s.head + 1
      st := .seek
      hunt := true
      out := s.out ++ [⟨.error e, s.head⟩] } ∧
    (startsWithMarker s.win = true → e = .lengthMismatch ∨ e = .checksumMismatch)

/-- R191: in a state that is not quiescent exactly one of the four actions can be performed; in a quiescent one
none can, and no event row either. -/
def Obligations.ExactlyOneActionUnlessQuiescent : Prop :=
  ∀ (s : State),
    (s.inReady = false → ∃! i, i ∈ [Instr.skip, .lock, .accept, .reject] ∧ ∃ t, exec i s = .next t) ∧
    (s.inReady = true →
      ∀ i ∈ [Instr.skip, .lock, .accept, .reject, .evDecoded, .evBadMarker, .evChecksumMismatch, .evLengthMismatch],
        exec i s = .refused .notEnabled)

/-! ### Event codes -/

/-- EV_DECODED and EV_CHECKSUM_MISMATCH and EV_LENGTH_MISMATCH: the ACCEPT or REJECT that emits them. -/
def Obligations.EventRowsOfACandidate : Prop :=
  ∀ (s : State), s.st = .acc →
    (∀ m k, decodeFrame s.cfg s.win = .complete m k →
      exec .evDecoded s = .next { s with
        win := s.win.drop k, head := s.head + k, st := .seek, hunt := false
        out := s.out ++ [⟨.decoded m, s.head⟩] }) ∧
    (decodeFrame s.cfg s.win = .invalid .checksumMismatch →
      exec .evChecksumMismatch s = .next { s with
        win := s.win.drop 1, head := s.head + 1, st := .seek, hunt := true
        out := s.out ++ [⟨.error .checksumMismatch, s.head⟩] }) ∧
    (decodeFrame s.cfg s.win = .invalid .lengthMismatch →
      exec .evLengthMismatch s = .next { s with
        win := s.win.drop 1, head := s.head + 1, st := .seek, hunt := true
        out := s.out ++ [⟨.error .lengthMismatch, s.head⟩] })

/-- EV_BAD_MARKER: the SKIP that reports, which is one with `hunt` = 0; a SKIP with `hunt` = 1 emits nothing. -/
def Obligations.EventRowOfAHunt : Prop :=
  ∀ (s : State), s.st = .seek →
    ((1 ≤ s.win.length ∧ byteAt s.win 0 ≠ 0x44) ∨
      (2 ≤ s.win.length ∧ byteAt s.win 0 = 0x44 ∧ byteAt s.win 1 ≠ 0x46)) →
    (s.hunt = false → exec .evBadMarker s = .next { s with
      win := s.win.drop 1
      head := s.head + 1
      hunt := true
      out := s.out ++ [⟨.error .badMarker, s.head⟩] }) ∧
    (s.hunt = true → exec .evBadMarker s = .refused .notEnabled)

/-- An event row stops in every state whose next action, if there is one, does not emit that row's code (the
model's choice, log entry 16). -/
def Obligations.EventRowsStopUnlessTheirEventIsNext : Prop :=
  ∀ (s : State) (i : Instr) (code : BitVec 3),
    (i, code) ∈ [(Instr.evDecoded, 0), (.evBadMarker, 1), (.evChecksumMismatch, 2), (.evLengthMismatch, 3)] →
    (∀ a, s.enabled = some a → (a.event s.hunt).map Event.code ≠ some code) → exec i s = .refused .notEnabled

/-- Event code 4 and the codes of EV_RSVD are refused, being never emitted. -/
def Obligations.ReservedEventCodesAreRefused : Prop :=
  ∀ (low : BitVec 2) (s : State),
    exec .evUnknownType s = .refused (.neverEmitted 4) ∧
    exec (.evRsvd low) s = .refused (.neverEmitted (1#1 ++ low))

/-! ### Checksum validator -/

/-- R102: `compute` is CKSUM of the serialised operands, the length as given. -/
def Obligations.ComputeIsTheChecksumOfTheFields : Prop :=
  ∀ (m0 m1 : Byte) (id : U32) (type len : U16) (payload : List Byte) (s : State), payload.length ≤ 2048 →
    exec (.ckCompute m0 m1 id type len payload) s = .next { s with
      result := some (.checksum (cksumFn s.cfg.cksum
        ([m0, m1] ++ wr32 s.cfg.endian id ++ wr16 s.cfg.endian type ++ wr16 s.cfg.endian len ++ payload))) }

/-- R103: `verify` is true exactly for 12 to 2060 bytes whose last two are CKSUM of the others. -/
def Obligations.VerifyComparesTheLastTwoBytes : Prop :=
  ∀ (f : List Byte) (s : State), ∃ v : Bool,
    exec (.ckVerify f) s = .next { s with result := some (.verified v) } ∧
    (v = true ↔ 12 ≤ f.length ∧ f.length ≤ 2060 ∧
      cksumFn s.cfg.cksum (f.take (f.length - 2)) = memRead16 s.cfg.endian f (f.length - 2))

/-- R104: every frame verifies, and its checksum field is what `compute` gives for its fields. -/
def Obligations.FrameVerifies : Prop :=
  ∀ (p : Params) (id : U32) (type : U16) (payload : List Byte), payload.length ≤ 2048 →
    verify p (frame p id type payload) = true ∧
    checksumField p.endian (frame p id type payload) payload.length =
      compute p [0x44, 0x46] id type (BitVec.ofNat 16 payload.length) payload

/-! ### Type classifier -/

/-- R168: the five cases of `classify`. -/
def Obligations.ClassifyByCase : Prop :=
  ∀ (reg : Registry) (type : U16) (len : Nat) (payload : List Byte), len ≤ 2048 → payload.length = len →
    (type.getLsbD 15 = true → len = 1 → ∃ b, payload = [b] ∧ classify reg type len payload = .ok .ack (some b)) ∧
    (type.getLsbD 15 = true → len ≠ 1 → classify reg type len payload = .bad) ∧
    (∀ r, type.getLsbD 15 = false → registrySize reg (baseCode type) = some r → len = r.val →
      classify reg type len payload = .ok .cmd none) ∧
    (∀ r, type.getLsbD 15 = false → registrySize reg (baseCode type) = some r → len ≠ r.val →
      classify reg type len payload = .bad) ∧
    (type.getLsbD 15 = false → registrySize reg (baseCode type) = none →
      classify reg type len payload = .ok .unknown none)

/-- CLASSIFY and DECODE return what their functions give and write nothing else. -/
def Obligations.PureRowsWriteOnlyTheirResult : Prop :=
  ∀ (s : State),
    (∀ w, exec (.decode w) s = .next { s with result := some (.decoded (decodeFrame s.cfg w)) }) ∧
    (∀ type len payload, classOperandsOk len payload = true →
      exec (.classify type len payload) s = .next { s with
        result := some (.classified (classify s.cfg.reg type len.toNat payload)) })

/-- R161: the ACK row takes exactly one payload byte, the response code, for every base code. -/
def Obligations.AckTakesOneByte : Prop :=
  ∀ (base : BitVec 15) (len : U16) (payload : List Byte) (s : State), classOperandsOk len payload = true →
    (len = 1 → ∃ b, payload = [b] ∧
      exec (.ack base len payload) s = .next { s with result := some (.classified (.ok .ack (some b))) }) ∧
    (len ≠ 1 → exec (.ack base len payload) s = .next { s with result := some (.classified .bad) })

/-- R162: the rows CMD_HI and CMD take exactly the registered size. -/
def Obligations.CommandTakesItsRegisteredSize : Prop :=
  ∀ (len : U16) (payload : List Byte) (s : State), classOperandsOk len payload = true →
    exec (.cmdHi len payload) s = .next { s with
      result := some (.classified (if len.toNat = s.cfg.reg.hiSize.val then .ok .cmd none else .bad)) } ∧
    registrySize s.cfg.reg 1 = some s.cfg.reg.hiSize ∧
    ∀ base size, registrySize s.cfg.reg base = some size →
      exec (.cmd base len payload) s = .next { s with
        result := some (.classified (if len.toNat = size.val then .ok .cmd none else .bad)) }

/-- R163: the UNKNOWN row takes every length and raises no error. -/
def Obligations.UnknownTypeIsNotAnError : Prop :=
  ∀ (base : BitVec 15) (len : U16) (payload : List Byte) (s : State), classOperandsOk len payload = true →
    registrySize s.cfg.reg base = none →
    exec (.unknown base len payload) s = .next { s with result := some (.classified (.ok .unknown none)) }

/-- Where the type-class rows, CLASSIFY and CK_COMPUTE stop: operands outside their domain, and a registry that
does not select the row. -/
def Obligations.OperandsOutsideTheDomainAreRefused : Prop :=
  ∀ (s : State),
    (∀ (base : BitVec 15) (type len : U16) (payload : List Byte), classOperandsOk len payload = false →
      exec (.ack base len payload) s = .refused .operandDomain ∧
      exec (.cmdHi len payload) s = .refused .operandDomain ∧
      exec (.classify type len payload) s = .refused .operandDomain) ∧
    (∀ (m0 m1 : Byte) (id : U32) (type len : U16) (payload : List Byte), 2048 < payload.length →
      exec (.ckCompute m0 m1 id type len payload) s = .refused .operandDomain) ∧
    (∀ (base : BitVec 15) (len : U16) (payload : List Byte),
      (registrySize s.cfg.reg base = none → exec (.cmd base len payload) s = .refused .notSelected) ∧
      (registrySize s.cfg.reg base ≠ none → exec (.unknown base len payload) s = .refused .notSelected) ∧
      (classOperandsOk len payload = false →
        (registrySize s.cfg.reg base ≠ none → exec (.cmd base len payload) s = .refused .operandDomain) ∧
        (registrySize s.cfg.reg base = none → exec (.unknown base len payload) s = .refused .operandDomain)))

/-- The row a type field decodes to returns what CLASSIFY returns for that type field. That a type-class row takes
the length and the payload and returns the classifier's answer is the model's reading (log entries 12 and 14). -/
def Obligations.TypeRowsAgreeWithClassify : Prop :=
  ∀ (s : State) (type len : U16) (payload : List Byte) (i : Instr),
    decodeType s.cfg.reg type len payload = .ok i → exec i s = exec (.classify type len payload) s

/-! ### Frame decoder -/

/-- R122 and R123: each marker byte is checked as soon as it is present, whatever follows. -/
def Obligations.DecodeRejectsABadMarkerAtOnce : Prop :=
  ∀ (p : Params) (a b : Byte) (rest : List Byte),
    (a ≠ 0x44 → decodeFrame p (a :: rest) = .invalid .badMarker) ∧
    (b ≠ 0x46 → decodeFrame p (0x44 :: b :: rest) = .invalid .badMarker) ∧
    decodeFrame p [] = .incomplete ∧ decodeFrame p [0x44] = .incomplete

/-- R124: a right marker and fewer than 10 bytes. -/
def Obligations.DecodeAwaitsTheHeader : Prop :=
  ∀ (p : Params) (w : List Byte), w.length < 10 →
    (1 ≤ w.length → byteAt w 0 = 0x44) → (2 ≤ w.length → byteAt w 1 = 0x46) → decodeFrame p w = .incomplete

/-- R125 and R126: a length over 2048 is rejected at once; a legal one waits for `12 + L` bytes. -/
def Obligations.DecodeBoundsTheLengthThenAwaitsTheFrame : Prop :=
  ∀ (p : Params) (w : List Byte), 10 ≤ w.length → startsWithMarker w = true →
    (2048 < (memRead16 p.endian w 8).toNat → decodeFrame p w = .invalid .lengthMismatch) ∧
    ((memRead16 p.endian w 8).toNat ≤ 2048 → w.length < 12 + (memRead16 p.endian w 8).toNat →
      decodeFrame p w = .incomplete)

/-- R127: a checksum that differs, which is `verify` of the declared frame saying no, before anything is said of
the type. -/
def Obligations.DecodeChecksTheChecksumFirst : Prop :=
  ∀ (p : Params) (w : List Byte) (len : Nat), startsWithMarker w = true →
    len = (memRead16 p.endian w 8).toNat → len ≤ 2048 → 12 + len ≤ w.length →
    (cksumFn p.cksum (w.take (10 + len)) ≠ memRead16 p.endian w (10 + len) ↔
      verify p (w.take (12 + len)) = false) ∧
    (cksumFn p.cksum (w.take (10 + len)) ≠ memRead16 p.endian w (10 + len) →
      decodeFrame p w = .invalid .checksumMismatch)

/-- R128: with the checksum right, the fields, the class, and the message or a LengthMismatch. -/
def Obligations.DecodeExtractsTheFields : Prop :=
  ∀ (p : Params) (w : List Byte) (len : Nat), startsWithMarker w = true →
    len = (memRead16 p.endian w 8).toNat → len ≤ 2048 → 12 + len ≤ w.length →
    cksumFn p.cksum (w.take (10 + len)) = memRead16 p.endian w (10 + len) →
    (classify p.reg (memRead16 p.endian w 6) len ((w.drop 10).take len) = .bad →
      decodeFrame p w = .invalid .lengthMismatch) ∧
    (∀ cls rc, classify p.reg (memRead16 p.endian w 6) len ((w.drop 10).take len) = .ok cls rc →
      decodeFrame p w = .complete
        { id := memRead32 p.endian w 2
          type := memRead16 p.endian w 6
          ack := (memRead16 p.endian w 6).getLsbD 15
          base := (memRead16 p.endian w 6).extractLsb' 0 15
          cls := cls
          len := len
          payload := (w.drop 10).take len
          rc := rc
          consumed := 12 + len } (12 + len))

/-- R129: exactly the four cases of Incomplete, and the bound of the fourth. -/
def Obligations.IncompleteInExactlyFourCases : Prop :=
  ∀ (p : Params) (w : List Byte),
    (decodeFrame p w = .incomplete ↔
      w = [] ∨ w = [0x44] ∨ (2 ≤ w.length ∧ w.length ≤ 9 ∧ w.take 2 = [0x44, 0x46]) ∨
      (10 ≤ w.length ∧ w.take 2 = [0x44, 0x46] ∧ (memRead16 p.endian w 8).toNat ≤ 2048 ∧
        w.length < 12 + (memRead16 p.endian w 8).toNat)) ∧
    (decodeFrame p w = .incomplete → w.length ≤ 2059)

/-- R131: a decision of `decode` stands when bytes follow. -/
def Obligations.DecodeDecisionsAreStable : Prop :=
  ∀ (p : Params) (w u : List Byte),
    (decodeFrame p w ≠ .incomplete → decodeFrame p (w ++ u) = decodeFrame p w) ∧
    (decodeFrame p (w ++ u) = .incomplete → decodeFrame p w = .incomplete)

/-- R130: `decode` depends only on the declared frame, and `k` is always `12 + L`. -/
def Obligations.DecodeReadsOnlyTheDeclaredFrame : Prop :=
  ∀ (p : Params) (w : List Byte),
    decodeFrame p w = decodeFrame p (w.take (12 + (memRead16 p.endian w 8).toNat)) ∧
    ∀ m k, decodeFrame p w = .complete m k → k = 12 + (memRead16 p.endian w 8).toNat ∧ m.consumed = k

/-- Every frame built from an id, a type and at most 2048 payload bytes decodes to exactly these, or is rejected
by the class rule alone. -/
def Obligations.FrameDecodesToItsFields : Prop :=
  ∀ (p : Params) (id : U32) (type : U16) (payload rest : List Byte), payload.length ≤ 2048 →
    (classify p.reg type payload.length payload = .bad →
      decodeFrame p (frame p id type payload ++ rest) = .invalid .lengthMismatch) ∧
    (∀ cls rc, classify p.reg type payload.length payload = .ok cls rc →
      decodeFrame p (frame p id type payload ++ rest) = .complete
        { id := id, type := type, ack := type.getLsbD 15, base := type.extractLsb' 0 15, cls := cls
          len := payload.length, payload := payload, rc := rc, consumed := 12 + payload.length }
        (12 + payload.length))

/-- R134: what flipping one bit of a well-formed frame does, under a checksum with P2. -/
def Obligations.SingleBitCorruptionIsDetected : Prop :=
  ∀ (p : Params) (f : List Byte) (m : Message) (i j : Nat), SingleBitSensitive (cksumFn p.cksum) →
    decodeFrame p f = .complete m f.length → i < f.length → j < 8 →
    (i < 2 → decodeFrame p (flipBit f i j) = .invalid .badMarker) ∧
    (2 ≤ i → i ≠ 8 → i ≠ 9 → decodeFrame p (flipBit f i j) = .invalid .checksumMismatch) ∧
    (i = 8 ∨ i = 9 →
      (2048 < (memRead16 p.endian (flipBit f i j) 8).toNat →
        decodeFrame p (flipBit f i j) = .invalid .lengthMismatch) ∧
      ((memRead16 p.endian (flipBit f i j) 8).toNat ≤ 2048 → m.len < (memRead16 p.endian (flipBit f i j) 8).toNat →
        decodeFrame p (flipBit f i j) = .incomplete))

/-! ### The port -/

/-- A step takes the oldest thing presented; when it decodes to an instruction the step is that instruction's
`exec`, on the state without it (a producer's transaction also makes that producer the block's owner). With
nothing presented the state stays. -/
def Obligations.StepRunsTheDecodedInstruction : Prop :=
  ∀ (s : State) (rest : List Item),
    (∀ q word, s.pending = .transaction q word :: rest → (s.owner = none ∨ s.owner = some q) →
      step s = exec (decodeCommand word) { s with pending := rest, owner := some q }) ∧
    (∀ q b i, s.pending = .marker q b :: rest → (s.owner = none ∨ s.owner = some q) → decodeMarker b = .ok i →
      step s = exec i { s with pending := rest, owner := some q }) ∧
    (∀ type len payload i, s.pending = .typeField type len payload :: rest →
      decodeType s.cfg.reg type len payload = .ok i → step s = exec i { s with pending := rest }) ∧
    (∀ code, s.pending = .event code :: rest → step s = exec (decodeEvent code) { s with pending := rest }) ∧
    (∀ i, s.pending = .named i :: rest → i.unencoded = true → step s = exec i { s with pending := rest }) ∧
    (s.pending = [] → step s = .next s)

/-- A word presented for the host is the next instruction the step runs, on the state with the word's row selected
and, for a host command and a marker byte, with the owner set; nothing else is taken from the port (the model's own
convention, log entries 15 and 24). -/
def Obligations.PresentedWordIsTheNextInstruction : Prop :=
  ∀ (s : State) (nbits w : Nat) (word : TableWord) (i : Instr),
    tableWord nbits w = some word → decodeTableWord nbits w = some i →
    step (s.withFetchWord nbits w) = exec i { s.select word with
      owner := match word with
        | .cmd _ => some (s.owner.getD 0)
        | .byte _ => some (s.owner.getD 0)
        | .typeField _ _ _ => s.owner
        | .event _ => s.owner }

/-- R284: a transaction, or a marker byte, of a second producer leaves the mark ConcurrentFeed and is not applied
(log entries 9 and 13). -/
def Obligations.SecondProducerLeavesOnlyItsMark : Prop :=
  ∀ (s : State) (first second : Nat) (rest : List Item), s.owner = some first → second ≠ first →
    (∀ word, s.pending = .transaction second word :: rest →
      step s = .next { s with pending := rest, faults := { s.faults with concurrentFeed := true } }) ∧
    (∀ b, b = 0x44 ∨ b = 0x46 → s.pending = .marker second b :: rest →
      step s = .next { s with pending := rest, faults := { s.faults with concurrentFeed := true } })

/-- R286: after the first transaction, another configuration leaves the mark ConfigChanged and the configuration
stays; before it, the configuration is set (R274). Another one is one with another ENDIAN, another CKSUM or another
partial map REG, however the map is written (the model's choice, log entries 2 and 26). -/
def Obligations.ConfigurationIsFixedByTheFirstTransaction : Prop :=
  ∀ (s : State) (p : Params) (rest : List Item), s.pending = .configure p :: rest →
    (∀ q, s.owner = some q →
      (p.endian ≠ s.cfg.endian ∨ p.cksum ≠ s.cfg.cksum ∨
        ∃ base, registrySize p.reg base ≠ registrySize s.cfg.reg base) →
      step s = .next { s with pending := rest, faults := { s.faults with configChanged := true } }) ∧
    (∀ q, s.owner = some q → p.endian = s.cfg.endian → p.cksum = s.cfg.cksum →
      (∀ base, registrySize p.reg base = registrySize s.cfg.reg base) → step s = .next { s with pending := rest }) ∧
    (s.owner = none → step s = .next { s with pending := rest, cfg := p })

/-- The consumer takes events in emission order, one at a time, and never one that was not emitted. -/
def Obligations.ConsumerTakesTheNextEvent : Prop :=
  ∀ (s : State) (rest : List Item), s.pending = .take :: rest →
    (s.taken < s.out.length → step s = .next { s with pending := rest, taken := s.taken + 1 }) ∧
    (s.taken = s.out.length → step s = .next { s with pending := rest })

/-! ### Encodings -/

/-- Words written out from R73, R69, R68 and R71. -/
def Obligations.SomeWordsDecodeAsTheSpecSays : Prop :=
  decodeCommand 0b00_1111_1111 = .nop 0xFF ∧ decodeCommand 0b01_0100_0100 = .feed 0x44 ∧
  decodeCommand 0b10_1010_0101 = .reset 0xA5 ∧ decodeCommand 0b11_0000_0000 = .rsvd 0 ∧
  decodeType Config.ref.reg 0b1000_0000_0000_0001 1 [0x00] = .ok (.ack 1 1 [0x00]) ∧
  decodeType Config.ref.reg 0b0000_0000_0000_0001 0 [] = .ok (.cmdHi 0 []) ∧
  decodeType Config.ref.reg 0b0000_0000_0000_0101 0 [] = .ok (.unknown 5 0 []) ∧
  decodeMarker 0b0100_0100 = .ok .markerD ∧ decodeMarker 0b0100_0110 = .ok .markerF ∧
  decodeEvent 0b010 = .evChecksumMismatch ∧ decodeEvent 0b111 = .evRsvd 0b11

/-- Decoding the encoding of a well-formed, selected row gives the row back, with every operand, and every word
that decodes is the encoding of the row it decodes to. -/
def Obligations.DecodeAndEncodeAgree : Prop :=
  (∀ (reg : Registry) (i : Instr) (w : TableWord), i.wf = true → i.selected reg = true → encode i = some w →
    decodeWord reg w = .ok i) ∧
  (∀ (reg : Registry) (w : TableWord) (i : Instr), decodeWord reg w = .ok i →
    encode i = some w ∧ i.wf = true ∧ i.selected reg = true)

/-! ### The whole machine -/

/-- R23: a block that is ready holds at most 2059 bytes, and at most 2060 all through the drain after one more
byte. -/
def Obligations.ReadyWindowHasRoom : Prop :=
  ∀ (s : State), s.inReady = true →
    s.win.length ≤ 2059 ∧
    ∀ (b : Byte) (n : Nat) (t : State), ActionsLead n { s with win := s.win ++ [b] } t → t.win.length ≤ 2060

/-- The construction state meets the invariant of the next statement. -/
def Obligations.ConstructionStateMeetsTheInvariant : Prop := State.reset.Inv

/-- Every step keeps the invariant: R26's quiescent-state invariant, the configuration still settable only while
nothing was fed, the consumer never ahead of the events, and no event with a reserved code. -/
def Obligations.EveryStepKeepsTheInvariant : Prop :=
  ∀ (s t : State), s.Inv → step s = .next t → t.Inv

/-- No byte sequence and no transaction stops the block: the step that takes a transaction answers a next state,
and no step at all answers a fault. -/
def Obligations.TransactionsNeverStopTheBlock : Prop :=
  (∀ (s : State) (q : Nat) (word : BitVec 10) (rest : List Item), s.pending = .transaction q word :: rest →
    ∃ t, step s = .next t ∧ t.pending = rest) ∧
  (∀ (s : State) (f : Fault), step s ≠ .fault f)

/-- No step takes a reason out of the fault mark, removes or reorders an event, or changes the configuration
after the first transaction. -/
def Obligations.MarksEventsAndConfigurationOutliveEveryStep : Prop :=
  ∀ (s t : State), step s = .next t →
    (∀ f, s.faults.has f = true → t.faults.has f = true) ∧ s.out <+: t.out ∧
    (s.owner ≠ none → t.owner = s.owner ∧ t.cfg = s.cfg)

/-- After an error has been reported, over any number of FEEDs: `hunt` stays 1 as long as no frame decodes, and no
BadMarker is reported until one does. -/
def Obligations.OneBadMarkerPerHuntRun : Prop :=
  ∀ (bs : List Byte) (s t : State) (evs : List Emission), s.waiting = true → s.hunt = true →
    feedAll bs s = .next t → t.out = s.out ++ evs →
    ((∀ x ∈ evs, ∀ m, x.event ≠ .decoded m) → t.hunt = true) ∧
    (∀ before x after, evs = before ++ x :: after → x.event = .error .badMarker →
      ∃ d ∈ before, ∃ m, d.event = .decoded m)

/-- R201 and R202 within one FEED: the events stand in stream order without overlap, between the old and the new
`head`, and a decoded message is what the decoder reads at the event's position. -/
def Obligations.EventsFollowTheStream : Prop :=
  ∀ (b : Byte) (s : State), s.inReady = true →
    ∃ (t : State) (evs : List Emission), exec (.feed b) s = .next t ∧ t.out = s.out ++ evs ∧
      evs.Pairwise (fun x y => x.endPos ≤ y.pos) ∧
      (∀ x ∈ evs, s.head ≤ x.pos ∧ x.endPos ≤ t.head) ∧
      (∀ x ∈ evs, ∀ m, x.event = .decoded m →
        decodeFrame s.cfg ((s.win ++ [b]).drop (x.pos - s.head)) = .complete m m.consumed)

/-- R199: feeding a chunk byte by byte is the same as appending it whole and draining once, so that no splitting
of the stream can be seen. -/
def Obligations.ChunksCannotBeSeen : Prop :=
  ∀ (bs : List Byte) (s : State), s.inReady = true →
    feedAll bs s = .next (State.drain { s with win := s.win ++ bs })

/-- R200: the first `k - 1` bytes of a frame emit nothing, the `k`-th emits exactly the message. -/
def Obligations.PartialDeliveryEmitsOnlyAtTheEnd : Prop :=
  ∀ (s : State) (f : List Byte) (m : Message), s.st = .seek → s.win = [] →
    decodeFrame s.cfg f = .complete m f.length →
    (∀ n, n < f.length → ∃ t, feedAll (f.take n) s = .next t ∧ t.out = s.out) ∧
    feedAll f s = .next { s with
      hunt := false
      head := s.head + f.length
      out := s.out ++ [⟨.decoded m, s.head⟩] }

/-- Junk with no `0x44` in it, then a frame: one BadMarker at most, and the frame is not lost. -/
def Obligations.JunkWithoutAMarkerByteLosesNoFrame : Prop :=
  ∀ (s : State) (junk f : List Byte) (m : Message), s.st = .seek → s.win = [] → (∀ b ∈ junk, b ≠ 0x44) →
    decodeFrame s.cfg f = .complete m f.length →
    feedAll (junk ++ f) s = .next { s with
      hunt := false
      head := s.head + junk.length + f.length
      out := s.out ++ (if s.hunt ∨ junk = [] then [] else [⟨.error .badMarker, s.head⟩]) ++
        [⟨.decoded m, s.head + junk.length⟩] }

/-! ### Byte order -/

/-- R13: a field is read with its first byte lowest under LE and highest under BE, wherever it stands, and `wr16` and
`wr32` are the inverse serialisations. -/
def Obligations.FieldsAreReadInTheByteOrderOfEndian : Prop :=
  (∀ (before after : List Byte) (b0 b1 : Byte),
    memRead16 .le (before ++ [b0, b1] ++ after) before.length = b0.setWidth 16 ||| b1.setWidth 16 <<< 8 ∧
    memRead16 .be (before ++ [b0, b1] ++ after) before.length = b0.setWidth 16 <<< 8 ||| b1.setWidth 16) ∧
  (∀ (before after : List Byte) (b0 b1 b2 b3 : Byte),
    memRead32 .le (before ++ [b0, b1, b2, b3] ++ after) before.length =
      b0.setWidth 32 ||| b1.setWidth 32 <<< 8 ||| b2.setWidth 32 <<< 16 ||| b3.setWidth 32 <<< 24 ∧
    memRead32 .be (before ++ [b0, b1, b2, b3] ++ after) before.length =
      b0.setWidth 32 <<< 24 ||| b1.setWidth 32 <<< 16 ||| b2.setWidth 32 <<< 8 ||| b3.setWidth 32) ∧
  (∀ (e : Endian) (v : U16), (wr16 e v).length = 2 ∧ memRead16 e (wr16 e v) 0 = v) ∧
  (∀ (e : Endian) (b0 b1 : Byte), wr16 e (memRead16 e [b0, b1] 0) = [b0, b1]) ∧
  (∀ (e : Endian) (v : U32), (wr32 e v).length = 4 ∧ memRead32 e (wr32 e v) 0 = v) ∧
  (∀ (e : Endian) (b0 b1 b2 b3 : Byte), wr32 e (memRead32 e [b0, b1, b2, b3] 0) = [b0, b1, b2, b3])
end

