-- ==== Sys2Proof/Laws/State.lean ====
section
/-! SUPPORT. Each field after each update of the state, by definition; tagged for simp so that no later proof
unfolds a record update. -/

namespace Sys2Proof.Machine

variable (s : State)

/-! `memWrite` -/

@[simp] theorem State.memWrite_st (b : Byte) : (s.memWrite b).st = s.st := rfl
@[simp] theorem State.memWrite_win (b : Byte) : (s.memWrite b).win = s.win ++ [b] := rfl
@[simp] theorem State.memWrite_hunt (b : Byte) : (s.memWrite b).hunt = s.hunt := rfl
@[simp] theorem State.memWrite_head (b : Byte) : (s.memWrite b).head = s.head := rfl
@[simp] theorem State.memWrite_faults (b : Byte) : (s.memWrite b).faults = s.faults := rfl
@[simp] theorem State.memWrite_cfg (b : Byte) : (s.memWrite b).cfg = s.cfg := rfl
@[simp] theorem State.memWrite_out (b : Byte) : (s.memWrite b).out = s.out := rfl
@[simp] theorem State.memWrite_taken (b : Byte) : (s.memWrite b).taken = s.taken := rfl
@[simp] theorem State.memWrite_pending (b : Byte) : (s.memWrite b).pending = s.pending := rfl
@[simp] theorem State.memWrite_owner (b : Byte) : (s.memWrite b).owner = s.owner := rfl
@[simp] theorem State.memWrite_result (b : Byte) : (s.memWrite b).result = s.result := rfl

/-! `dropBytes` -/

@[simp] theorem State.dropBytes_st (k : Nat) : (s.dropBytes k).st = s.st := rfl
@[simp] theorem State.dropBytes_win (k : Nat) : (s.dropBytes k).win = s.win.drop k := rfl
@[simp] theorem State.dropBytes_hunt (k : Nat) : (s.dropBytes k).hunt = s.hunt := rfl
@[simp] theorem State.dropBytes_head (k : Nat) : (s.dropBytes k).head = s.head + k := rfl
@[simp] theorem State.dropBytes_faults (k : Nat) : (s.dropBytes k).faults = s.faults := rfl
@[simp] theorem State.dropBytes_cfg (k : Nat) : (s.dropBytes k).cfg = s.cfg := rfl
@[simp] theorem State.dropBytes_out (k : Nat) : (s.dropBytes k).out = s.out := rfl
@[simp] theorem State.dropBytes_taken (k : Nat) : (s.dropBytes k).taken = s.taken := rfl
@[simp] theorem State.dropBytes_pending (k : Nat) : (s.dropBytes k).pending = s.pending := rfl
@[simp] theorem State.dropBytes_owner (k : Nat) : (s.dropBytes k).owner = s.owner := rfl
@[simp] theorem State.dropBytes_result (k : Nat) : (s.dropBytes k).result = s.result := rfl

/-! `emit` -/

@[simp] theorem State.emit_st (e : Event) : (s.emit e).st = s.st := rfl
@[simp] theorem State.emit_win (e : Event) : (s.emit e).win = s.win := rfl
@[simp] theorem State.emit_hunt (e : Event) : (s.emit e).hunt = s.hunt := rfl
@[simp] theorem State.emit_head (e : Event) : (s.emit e).head = s.head := rfl
@[simp] theorem State.emit_faults (e : Event) : (s.emit e).faults = s.faults := rfl
@[simp] theorem State.emit_cfg (e : Event) : (s.emit e).cfg = s.cfg := rfl
@[simp] theorem State.emit_out (e : Event) : (s.emit e).out = s.out ++ [⟨e, s.head⟩] := rfl
@[simp] theorem State.emit_taken (e : Event) : (s.emit e).taken = s.taken := rfl
@[simp] theorem State.emit_pending (e : Event) : (s.emit e).pending = s.pending := rfl
@[simp] theorem State.emit_owner (e : Event) : (s.emit e).owner = s.owner := rfl
@[simp] theorem State.emit_result (e : Event) : (s.emit e).result = s.result := rfl

/-! `setSync` -/

@[simp] theorem State.setSync_st (x : SyncState) (h : Bool) : (s.setSync x h).st = x := rfl
@[simp] theorem State.setSync_win (x : SyncState) (h : Bool) : (s.setSync x h).win = s.win := rfl
@[simp] theorem State.setSync_hunt (x : SyncState) (h : Bool) : (s.setSync x h).hunt = h := rfl
@[simp] theorem State.setSync_head (x : SyncState) (h : Bool) : (s.setSync x h).head = s.head := rfl
@[simp] theorem State.setSync_faults (x : SyncState) (h : Bool) : (s.setSync x h).faults = s.faults := rfl
@[simp] theorem State.setSync_cfg (x : SyncState) (h : Bool) : (s.setSync x h).cfg = s.cfg := rfl
@[simp] theorem State.setSync_out (x : SyncState) (h : Bool) : (s.setSync x h).out = s.out := rfl
@[simp] theorem State.setSync_taken (x : SyncState) (h : Bool) : (s.setSync x h).taken = s.taken := rfl
@[simp] theorem State.setSync_pending (x : SyncState) (h : Bool) : (s.setSync x h).pending = s.pending := rfl
@[simp] theorem State.setSync_owner (x : SyncState) (h : Bool) : (s.setSync x h).owner = s.owner := rfl
@[simp] theorem State.setSync_result (x : SyncState) (h : Bool) : (s.setSync x h).result = s.result := rfl

/-! `mark` -/

@[simp] theorem State.mark_st (f : Fault) : (s.mark f).st = s.st := rfl
@[simp] theorem State.mark_win (f : Fault) : (s.mark f).win = s.win := rfl
@[simp] theorem State.mark_hunt (f : Fault) : (s.mark f).hunt = s.hunt := rfl
@[simp] theorem State.mark_head (f : Fault) : (s.mark f).head = s.head := rfl
@[simp] theorem State.mark_faults (f : Fault) : (s.mark f).faults = s.faults.add f := rfl
@[simp] theorem State.mark_cfg (f : Fault) : (s.mark f).cfg = s.cfg := rfl
@[simp] theorem State.mark_out (f : Fault) : (s.mark f).out = s.out := rfl
@[simp] theorem State.mark_taken (f : Fault) : (s.mark f).taken = s.taken := rfl
@[simp] theorem State.mark_pending (f : Fault) : (s.mark f).pending = s.pending := rfl
@[simp] theorem State.mark_owner (f : Fault) : (s.mark f).owner = s.owner := rfl
@[simp] theorem State.mark_result (f : Fault) : (s.mark f).result = s.result := rfl

/-! `ret` -/

@[simp] theorem State.ret_st (r : FnResult) : (s.ret r).st = s.st := rfl
@[simp] theorem State.ret_win (r : FnResult) : (s.ret r).win = s.win := rfl
@[simp] theorem State.ret_hunt (r : FnResult) : (s.ret r).hunt = s.hunt := rfl
@[simp] theorem State.ret_head (r : FnResult) : (s.ret r).head = s.head := rfl
@[simp] theorem State.ret_faults (r : FnResult) : (s.ret r).faults = s.faults := rfl
@[simp] theorem State.ret_cfg (r : FnResult) : (s.ret r).cfg = s.cfg := rfl
@[simp] theorem State.ret_out (r : FnResult) : (s.ret r).out = s.out := rfl
@[simp] theorem State.ret_taken (r : FnResult) : (s.ret r).taken = s.taken := rfl
@[simp] theorem State.ret_pending (r : FnResult) : (s.ret r).pending = s.pending := rfl
@[simp] theorem State.ret_owner (r : FnResult) : (s.ret r).owner = s.owner := rfl
@[simp] theorem State.ret_result (r : FnResult) : (s.ret r).result = some r := rfl

/-! `resetSync` -/

@[simp] theorem State.resetSync_st : (s.resetSync).st = .seek := rfl
@[simp] theorem State.resetSync_win : (s.resetSync).win = [] := rfl
@[simp] theorem State.resetSync_hunt : (s.resetSync).hunt = false := rfl
@[simp] theorem State.resetSync_head : (s.resetSync).head = 0 := rfl
@[simp] theorem State.resetSync_faults : (s.resetSync).faults = s.faults := rfl
@[simp] theorem State.resetSync_cfg : (s.resetSync).cfg = s.cfg := rfl
@[simp] theorem State.resetSync_out : (s.resetSync).out = s.out := rfl
@[simp] theorem State.resetSync_taken : (s.resetSync).taken = s.taken := rfl
@[simp] theorem State.resetSync_pending : (s.resetSync).pending = s.pending := rfl
@[simp] theorem State.resetSync_owner : (s.resetSync).owner = s.owner := rfl
@[simp] theorem State.resetSync_result : (s.resetSync).result = s.result := rfl

/-! `lock` -/

@[simp] theorem State.lock_st : (s.lock).st = .acc := rfl
@[simp] theorem State.lock_win : (s.lock).win = s.win := rfl
@[simp] theorem State.lock_hunt : (s.lock).hunt = s.hunt := rfl
@[simp] theorem State.lock_head : (s.lock).head = s.head := rfl
@[simp] theorem State.lock_faults : (s.lock).faults = s.faults := rfl
@[simp] theorem State.lock_cfg : (s.lock).cfg = s.cfg := rfl
@[simp] theorem State.lock_out : (s.lock).out = s.out := rfl
@[simp] theorem State.lock_taken : (s.lock).taken = s.taken := rfl
@[simp] theorem State.lock_pending : (s.lock).pending = s.pending := rfl
@[simp] theorem State.lock_owner : (s.lock).owner = s.owner := rfl
@[simp] theorem State.lock_result : (s.lock).result = s.result := rfl

/-! `accept` -/

@[simp] theorem State.accept_st (m : Message) (k : Nat) : (s.accept m k).st = .seek := rfl
@[simp] theorem State.accept_win (m : Message) (k : Nat) : (s.accept m k).win = s.win.drop k := rfl
@[simp] theorem State.accept_hunt (m : Message) (k : Nat) : (s.accept m k).hunt = false := rfl
@[simp] theorem State.accept_head (m : Message) (k : Nat) : (s.accept m k).head = s.head + k := rfl
@[simp] theorem State.accept_faults (m : Message) (k : Nat) : (s.accept m k).faults = s.faults := rfl
@[simp] theorem State.accept_cfg (m : Message) (k : Nat) : (s.accept m k).cfg = s.cfg := rfl
@[simp] theorem State.accept_out (m : Message) (k : Nat) : (s.accept m k).out = s.out ++ [⟨.decoded m, s.head⟩] := rfl
@[simp] theorem State.accept_taken (m : Message) (k : Nat) : (s.accept m k).taken = s.taken := rfl
@[simp] theorem State.accept_pending (m : Message) (k : Nat) : (s.accept m k).pending = s.pending := rfl
@[simp] theorem State.accept_owner (m : Message) (k : Nat) : (s.accept m k).owner = s.owner := rfl
@[simp] theorem State.accept_result (m : Message) (k : Nat) : (s.accept m k).result = s.result := rfl

/-! `reject` -/

@[simp] theorem State.reject_st (e : FrameError) : (s.reject e).st = .seek := rfl
@[simp] theorem State.reject_win (e : FrameError) : (s.reject e).win = s.win.drop 1 := rfl
@[simp] theorem State.reject_hunt (e : FrameError) : (s.reject e).hunt = true := rfl
@[simp] theorem State.reject_head (e : FrameError) : (s.reject e).head = s.head + 1 := rfl
@[simp] theorem State.reject_faults (e : FrameError) : (s.reject e).faults = s.faults := rfl
@[simp] theorem State.reject_cfg (e : FrameError) : (s.reject e).cfg = s.cfg := rfl
@[simp] theorem State.reject_out (e : FrameError) : (s.reject e).out = s.out ++ [⟨.error e, s.head⟩] := rfl
@[simp] theorem State.reject_taken (e : FrameError) : (s.reject e).taken = s.taken := rfl
@[simp] theorem State.reject_pending (e : FrameError) : (s.reject e).pending = s.pending := rfl
@[simp] theorem State.reject_owner (e : FrameError) : (s.reject e).owner = s.owner := rfl
@[simp] theorem State.reject_result (e : FrameError) : (s.reject e).result = s.result := rfl

/-! `takeEvent` -/

@[simp] theorem State.takeEvent_st : (s.takeEvent).st = s.st := rfl
@[simp] theorem State.takeEvent_win : (s.takeEvent).win = s.win := rfl
@[simp] theorem State.takeEvent_hunt : (s.takeEvent).hunt = s.hunt := rfl
@[simp] theorem State.takeEvent_head : (s.takeEvent).head = s.head := rfl
@[simp] theorem State.takeEvent_faults : (s.takeEvent).faults = s.faults := rfl
@[simp] theorem State.takeEvent_cfg : (s.takeEvent).cfg = s.cfg := rfl
@[simp] theorem State.takeEvent_out : (s.takeEvent).out = s.out := rfl
@[simp] theorem State.takeEvent_taken : (s.takeEvent).taken = min (s.taken + 1) s.out.length := rfl
@[simp] theorem State.takeEvent_pending : (s.takeEvent).pending = s.pending := rfl
@[simp] theorem State.takeEvent_owner : (s.takeEvent).owner = s.owner := rfl
@[simp] theorem State.takeEvent_result : (s.takeEvent).result = s.result := rfl

/-! `emitError` and `recover`, whose report may be absent -/

@[simp] theorem State.emitError_st (r : Option FrameError) : (s.emitError r).st = s.st := by
  cases r <;> rfl

@[simp] theorem State.emitError_win (r : Option FrameError) : (s.emitError r).win = s.win := by
  cases r <;> rfl

@[simp] theorem State.emitError_hunt (r : Option FrameError) : (s.emitError r).hunt = s.hunt := by
  cases r <;> rfl

@[simp] theorem State.emitError_head (r : Option FrameError) : (s.emitError r).head = s.head := by
  cases r <;> rfl

@[simp] theorem State.emitError_faults (r : Option FrameError) : (s.emitError r).faults = s.faults := by
  cases r <;> rfl

@[simp] theorem State.emitError_cfg (r : Option FrameError) : (s.emitError r).cfg = s.cfg := by
  cases r <;> rfl

@[simp] theorem State.emitError_none : s.emitError none = s := rfl

@[simp] theorem State.emitError_some (e : FrameError) : s.emitError (some e) = s.emit (.error e) := rfl

@[simp] theorem State.emitError_taken (r : Option FrameError) : (s.emitError r).taken = s.taken := by
  cases r <;> rfl

@[simp] theorem State.emitError_pending (r : Option FrameError) : (s.emitError r).pending = s.pending := by
  cases r <;> rfl

@[simp] theorem State.emitError_owner (r : Option FrameError) : (s.emitError r).owner = s.owner := by
  cases r <;> rfl

@[simp] theorem State.emitError_result (r : Option FrameError) : (s.emitError r).result = s.result := by
  cases r <;> rfl

@[simp] theorem State.recover_st (r : Option FrameError) : (s.recover r).st = .seek := rfl

@[simp] theorem State.recover_win (r : Option FrameError) : (s.recover r).win = s.win.drop 1 := by
  cases r <;> rfl

@[simp] theorem State.recover_hunt (r : Option FrameError) : (s.recover r).hunt = true := rfl

@[simp] theorem State.recover_head (r : Option FrameError) : (s.recover r).head = s.head + 1 := by
  cases r <;> rfl

@[simp] theorem State.recover_faults (r : Option FrameError) : (s.recover r).faults = s.faults := by
  cases r <;> rfl

@[simp] theorem State.recover_cfg (r : Option FrameError) : (s.recover r).cfg = s.cfg := by
  cases r <;> rfl

@[simp] theorem State.recover_out (r : Option FrameError) : (s.recover r).out = (s.emitError r).out := rfl

@[simp] theorem State.recover_taken (r : Option FrameError) : (s.recover r).taken = s.taken := by
  cases r <;> rfl

@[simp] theorem State.recover_pending (r : Option FrameError) : (s.recover r).pending = s.pending := by
  cases r <;> rfl

@[simp] theorem State.recover_owner (r : Option FrameError) : (s.recover r).owner = s.owner := by
  cases r <;> rfl

@[simp] theorem State.recover_result (r : Option FrameError) : (s.recover r).result = s.result := by
  cases r <;> rfl

/-! `skip`, which reports once per hunt run (R193) -/

@[simp] theorem State.skip_st : s.skip.st = .seek := State.recover_st s _

@[simp] theorem State.skip_win : s.skip.win = s.win.drop 1 := State.recover_win s _

@[simp] theorem State.skip_hunt : s.skip.hunt = true := State.recover_hunt s _

@[simp] theorem State.skip_head : s.skip.head = s.head + 1 := State.recover_head s _

@[simp] theorem State.skip_faults : s.skip.faults = s.faults := State.recover_faults s _

@[simp] theorem State.skip_cfg : s.skip.cfg = s.cfg := State.recover_cfg s _

@[simp] theorem State.skip_out :
    s.skip.out = if s.hunt then s.out else s.out ++ [⟨.error .badMarker, s.head⟩] := by
  cases h : s.hunt <;> simp [State.skip, skipReport, h]

@[simp] theorem State.skip_taken : s.skip.taken = s.taken := State.recover_taken s _

@[simp] theorem State.skip_pending : s.skip.pending = s.pending := State.recover_pending s _

@[simp] theorem State.skip_owner : s.skip.owner = s.owner := State.recover_owner s _

@[simp] theorem State.skip_result : s.skip.result = s.result := State.recover_result s _

end Sys2Proof.Machine
end

