-- ==== Sys2Proof/Laws/Exec.lean ====
section
/-! SUPPORT. The arms of `exec`, each the direct call of its meaning. -/

namespace Sys2Proof.Machine

variable (s : State)

@[simp] theorem exec_nop (d : Byte) : exec (.nop d) s = .next (s.whenReady s) := rfl
@[simp] theorem exec_feed (b : Byte) : exec (.feed b) s = .next (s.feedByte b) := rfl
@[simp] theorem exec_reset (d : Byte) : exec (.reset d) s = .next s.resetSync := rfl
@[simp] theorem exec_rsvd (d : Byte) : exec (.rsvd d) s = .next (s.whenReady (s.mark .reservedOp)) := rfl
@[simp] theorem exec_ack (base : BitVec 15) (len : U16) (pl : List Byte) :
    exec (.ack base len pl) s = s.retClass len pl (classifyAck len.toNat pl) := rfl
@[simp] theorem exec_cmdHi (len : U16) (pl : List Byte) :
    exec (.cmdHi len pl) s = s.retClass len pl (classifyCmd s.cfg.reg.hiSize len.toNat) := rfl
@[simp] theorem exec_cmd (base : BitVec 15) (len : U16) (pl : List Byte) :
    exec (.cmd base len pl) s = execCmd base len pl s := rfl
@[simp] theorem exec_unknown (base : BitVec 15) (len : U16) (pl : List Byte) :
    exec (.unknown base len pl) s = execUnknown base len pl s := rfl
@[simp] theorem exec_markerD : exec .markerD s = .next (s.feedByte 0x44) := rfl
@[simp] theorem exec_markerF : exec .markerF s = .next (s.feedByte 0x46) := rfl
@[simp] theorem exec_evDecoded : exec .evDecoded s = s.emitting 0 := rfl
@[simp] theorem exec_evBadMarker : exec .evBadMarker s = s.emitting 1 := rfl
@[simp] theorem exec_evChecksumMismatch : exec .evChecksumMismatch s = s.emitting 2 := rfl
@[simp] theorem exec_evLengthMismatch : exec .evLengthMismatch s = s.emitting 3 := rfl
@[simp] theorem exec_evUnknownType : exec .evUnknownType s = .refused (.neverEmitted 4) := rfl
@[simp] theorem exec_evRsvd (low : BitVec 2) : exec (.evRsvd low) s = .refused (.neverEmitted (1#1 ++ low)) := rfl
@[simp] theorem exec_skip : exec .skip s = execSkip s := rfl
@[simp] theorem exec_lock : exec .lock s = execLock s := rfl
@[simp] theorem exec_accept : exec .accept s = execAccept s := rfl
@[simp] theorem exec_reject : exec .reject s = execReject s := rfl
@[simp] theorem exec_ckCompute (m0 m1 : Byte) (id : U32) (type len : U16) (pl : List Byte) :
    exec (.ckCompute m0 m1 id type len pl) s = execCkCompute m0 m1 id type len pl s := rfl
@[simp] theorem exec_ckVerify (f : List Byte) :
    exec (.ckVerify f) s = .next (s.ret (.verified (verify s.cfg f))) := rfl
@[simp] theorem exec_decode (w : List Byte) :
    exec (.decode w) s = .next (s.ret (.decoded (decodeFrame s.cfg w))) := rfl
@[simp] theorem exec_classify (type len : U16) (pl : List Byte) :
    exec (.classify type len pl) s = s.retClass len pl (classify s.cfg.reg type len.toNat pl) := rfl

end Sys2Proof.Machine
end

