-- ==== Sys2Proof/Laws/Bytes.lean ====
section
/-! SUPPORT. Field reads and writes (spec/00_scope.md R13): a read inside a sequence does not see what follows it,
and a read of a written field gives the value written. -/

namespace Sys2Proof.Machine

theorem byteAt_append_left {w : List Byte} {i : Nat} (h : i < w.length) (u : List Byte) :
    byteAt (w ++ u) i = byteAt w i := by
  simp [byteAt, List.getElem?_append_left h]

theorem byteAt_append_right (a w : List Byte) (i : Nat) : byteAt (a ++ w) (a.length + i) = byteAt w i := by
  simp [byteAt, List.getElem?_append_right]

theorem memRead16_append {w : List Byte} {i : Nat} (h : i + 2 ≤ w.length) (e : Endian) (u : List Byte) :
    memRead16 e (w ++ u) i = memRead16 e w i := by
  cases e <;> simp [memRead16, byteAt_append_left (show i < w.length by omega),
    byteAt_append_left (show i + 1 < w.length by omega)]

theorem memRead32_append {w : List Byte} {i : Nat} (h : i + 4 ≤ w.length) (e : Endian) (u : List Byte) :
    memRead32 e (w ++ u) i = memRead32 e w i := by
  cases e <;> simp [memRead32, byteAt_append_left (show i < w.length by omega),
    byteAt_append_left (show i + 1 < w.length by omega), byteAt_append_left (show i + 2 < w.length by omega),
    byteAt_append_left (show i + 3 < w.length by omega)]

@[simp] theorem wr16_length (e : Endian) (v : U16) : (wr16 e v).length = 2 := by cases e <;> rfl

@[simp] theorem wr32_length (e : Endian) (v : U32) : (wr32 e v).length = 4 := by cases e <;> rfl

theorem bytes16_join (v : U16) : v.extractLsb' 8 8 ++ v.extractLsb' 0 8 = v := by
  apply BitVec.eq_of_getLsbD_eq
  intro i hi
  rw [BitVec.getLsbD_append, BitVec.getLsbD_extractLsb', BitVec.getLsbD_extractLsb']
  by_cases h : i < 8
  · simp [h]
  · rw [if_neg h, show 8 + (i - 8) = i by omega]
    simp; omega

theorem bytes32_join (v : U32) :
    v.extractLsb' 24 8 ++ v.extractLsb' 16 8 ++ v.extractLsb' 8 8 ++ v.extractLsb' 0 8 = v := by
  apply BitVec.eq_of_getLsbD_eq
  intro i hi
  rw [BitVec.getLsbD_append, BitVec.getLsbD_append, BitVec.getLsbD_append]
  simp only [BitVec.getLsbD_extractLsb']
  by_cases h : i < 8
  · simp [h]
  · by_cases h1 : i - 8 < 8
    · rw [if_neg h, if_pos h1, show 8 + (i - 8) = i by omega]
      simp; omega
    · by_cases h2 : i - 8 - 8 < 8
      · rw [if_neg h, if_neg h1, if_pos h2, show 16 + (i - 8 - 8) = i by omega]
        simp; omega
      · rw [if_neg h, if_neg h1, if_neg h2, show 24 + (i - 8 - 8 - 8) = i by omega]
        simp; omega

/-- A 2-byte field reads back as the value written, wherever it stands. -/
theorem memRead16_wr16 (e : Endian) (a b : List Byte) (v : U16) :
    memRead16 e (a ++ wr16 e v ++ b) a.length = v := by
  have h0 := byteAt_append_right a (wr16 e v ++ b) 0
  have h1 := byteAt_append_right a (wr16 e v ++ b) 1
  simp only [Nat.add_zero] at h0
  cases e <;> simp only [memRead16, List.append_assoc, h0, h1] <;> exact bytes16_join v

/-- A 4-byte field reads back as the value written, wherever it stands. -/
theorem memRead32_wr32 (e : Endian) (a b : List Byte) (v : U32) :
    memRead32 e (a ++ wr32 e v ++ b) a.length = v := by
  have h0 := byteAt_append_right a (wr32 e v ++ b) 0
  have h1 := byteAt_append_right a (wr32 e v ++ b) 1
  have h2 := byteAt_append_right a (wr32 e v ++ b) 2
  have h3 := byteAt_append_right a (wr32 e v ++ b) 3
  simp only [Nat.add_zero] at h0
  cases e <;> simp only [memRead32, List.append_assoc, h0, h1, h2, h3] <;> exact bytes32_join v

end Sys2Proof.Machine
end

