-- ==== Sys2Proof/Laws/Bits.lean ====
section
/-! SUPPORT. The bit fields of the encoded rows (spec/30_encoding.md R62, R73): a word is its fields put together,
and each field of a word put together is what was put in. -/

namespace Sys2Proof.Machine

theorem getLsbD_append_low {m n : Nat} (h : BitVec m) (l : BitVec n) {i : Nat} (hi : i < n) :
    (h ++ l).getLsbD i = l.getLsbD i := by
  rw [BitVec.getLsbD_append, if_pos hi]

theorem getLsbD_append_high {m n : Nat} (h : BitVec m) (l : BitVec n) (i : Nat) :
    (h ++ l).getLsbD (n + i) = h.getLsbD i := by
  rw [BitVec.getLsbD_append, if_neg (by omega), Nat.add_sub_cancel_left]

/-- The low field of a word put together. -/
theorem extract_append_low {m n : Nat} (h : BitVec m) (l : BitVec n) : (h ++ l).extractLsb' 0 n = l := by
  apply BitVec.eq_of_getLsbD_eq
  intro i hi
  rw [BitVec.getLsbD_extractLsb', Nat.zero_add, getLsbD_append_low h l hi]
  simp only [hi, decide_true, Bool.true_and]

/-- The high field of a word put together. -/
theorem extract_append_high {m n : Nat} (h : BitVec m) (l : BitVec n) : (h ++ l).extractLsb' n m = h := by
  apply BitVec.eq_of_getLsbD_eq
  intro i hi
  rw [BitVec.getLsbD_extractLsb', getLsbD_append_high]
  simp only [hi, decide_true, Bool.true_and]

/-- A field of the high part of a word put together is that field of what was put in. -/
theorem extract_append_above {m n : Nat} (h : BitVec m) (l : BitVec n) (start len : Nat) :
    (h ++ l).extractLsb' (n + start) len = h.extractLsb' start len := by
  apply BitVec.eq_of_getLsbD_eq
  intro i _
  rw [BitVec.getLsbD_extractLsb', BitVec.getLsbD_extractLsb', Nat.add_assoc, getLsbD_append_high]

/-- A command word is its op and its data (R73). -/
theorem command_split (w : BitVec 10) : w.extractLsb' 8 2 ++ w.extractLsb' 0 8 = w := by
  apply BitVec.eq_of_getLsbD_eq
  intro i hi
  rw [BitVec.getLsbD_append, BitVec.getLsbD_extractLsb', BitVec.getLsbD_extractLsb']
  by_cases h : i < 8
  · simp [h]
  · rw [if_neg h, show 8 + (i - 8) = i by omega]
    simp; omega

/-- A type field is its ACK bit and its base code (R62). -/
theorem type_split (w : U16) : (if w.getLsbD 15 then 1#1 else 0#1) ++ w.extractLsb' 0 15 = w := by
  apply BitVec.eq_of_getLsbD_eq
  intro i hi
  rw [BitVec.getLsbD_append, BitVec.getLsbD_extractLsb']
  by_cases h : i < 15
  · simp [h]
  · obtain rfl : i = 15 := by omega
    rw [if_neg h]
    cases hb : w.getLsbD 15 <;> simp

end Sys2Proof.Machine
end

