-- ==== Sys2Proof/Laws/Crc.lean ====
section
/-! SUPPORT. The reference instance of CKSUM detects every single-bit error (spec/40_checksum.md R106, P2): each
step of the CRC is injective in the running value and in the byte. -/

namespace Sys2Proof.Machine

theorem crcShift_eq (c : U16) : crcShift c = (c <<< 1) ^^^ (if c.getLsbD 15 then 0x1021#16 else 0#16) := by
  unfold crcShift
  split <;> simp

theorem crcShift_bit0 (c : U16) : (crcShift c).getLsbD 0 = c.getLsbD 15 := by
  rw [crcShift_eq, BitVec.getLsbD_xor]
  cases c.getLsbD 15 <;> simp

theorem crcShift_injective {a b : U16} (h : crcShift a = crcShift b) : a = b := by
  have h15 : a.getLsbD 15 = b.getLsbD 15 := by rw [← crcShift_bit0, ← crcShift_bit0, h]
  rw [crcShift_eq, crcShift_eq, h15] at h
  have hs : a <<< 1 = b <<< 1 := by
    have := congrArg (· ^^^ (if b.getLsbD 15 then 0x1021#16 else 0#16)) h
    simpa [BitVec.xor_assoc] using this
  apply BitVec.eq_of_getLsbD_eq
  intro i hi
  by_cases h' : i = 15
  · rw [h', h15]
  · have := congrArg (fun v => v.getLsbD (i + 1)) hs
    have hi' : i + 1 < 16 := by omega
    simpa [BitVec.getLsbD_shiftLeft, hi', hi] using this

theorem crcShifts_injective : ∀ (n : Nat) {a b : U16}, crcShifts n a = crcShifts n b → a = b
  | 0, _, _, h => h
  | n + 1, _, _, h => crcShift_injective (crcShifts_injective n h)

theorem crcByte_injective {c d : U16} {b : Byte} (h : crcByte c b = crcByte d b) : c = d := by
  have := congrArg (fun v : U16 => v ^^^ (b ++ 0#8 : BitVec 16)) (crcShifts_injective 8 h)
  simpa [BitVec.xor_assoc] using this

theorem append_zero_injective {a b : Byte} (h : a ++ 0#8 = b ++ 0#8) : a = b := by
  apply BitVec.eq_of_getLsbD_eq
  intro i hi
  have := congrArg (fun v => v.getLsbD (8 + i)) h
  simp only [BitVec.getLsbD_append] at this
  simpa using this

theorem crcByte_byte_injective {c : U16} {a b : Byte} (h : crcByte c a = crcByte c b) : a = b := by
  have := congrArg (fun v : U16 => c ^^^ v) (crcShifts_injective 8 h)
  simp only [← BitVec.xor_assoc, BitVec.xor_self, BitVec.zero_xor] at this
  exact append_zero_injective this

theorem crcFold_injective : ∀ (l : List Byte) {c d : U16}, l.foldl crcByte c = l.foldl crcByte d → c = d
  | [], _, _, h => h
  | _ :: l, _, _, h => crcByte_injective (crcFold_injective l h)

theorem flip_ne (b : Byte) {j : Nat} (h : j < 8) : b ^^^ (1#8 <<< j) ≠ b := by
  intro h'
  have := congrArg (fun v => v.getLsbD j) h'
  simp [h] at this

/-- `CRC16_CCITT_FALSE` has P2 (R106). -/
theorem crc16CcittFalse_singleBitSensitive : SingleBitSensitive crc16CcittFalse := by
  intro c i j _ _ hi hj h
  have hc : c = c.take i ++ byteAt c i :: c.drop (i + 1) := by
    simp [byteAt, List.getElem?_eq_getElem hi]
  have hf : flipBit c i j = c.take i ++ (byteAt c i ^^^ (1#8 <<< j)) :: c.drop (i + 1) := by
    unfold flipBit
    rw [List.set_eq_take_append_cons_drop, if_pos hi]
  rw [hf] at h
  conv_rhs at h => rw [hc]
  simp only [crc16CcittFalse, List.foldl_append, List.foldl_cons] at h
  exact flip_ne _ hj (crcByte_byte_injective (crcFold_injective _ h))

end Sys2Proof.Machine
end

