-- ==== Sys2Proof/Laws/Decoder.lean ====
section
/-! SUPPORT. What each answer of the frame decoder says of its input (spec/41_frame_decoder.md R121). -/

namespace Sys2Proof.Machine

/-- A sequence that passes the marker checks (R122, R123). -/
def MarkerOk (w : List Byte) : Prop :=
  (1 ≤ w.length → byteAt w 0 = 0x44) ∧ (2 ≤ w.length → byteAt w 1 = 0x46)

theorem decodeFrame_of_markerOk {p : Params} {w : List Byte} (h : MarkerOk w) :
    decodeFrame p w =
      if w.length < 10 then .incomplete
      else if 2048 < lengthField p.endian w then .invalid .lengthMismatch
      else decodeBody p w (lengthField p.endian w) := by
  have h0 : ¬(1 ≤ w.length ∧ byteAt w 0 ≠ 0x44) := fun h' => h'.2 (h.1 h'.1)
  have h1 : ¬(2 ≤ w.length ∧ byteAt w 1 ≠ 0x46) := fun h' => h'.2 (h.2 h'.1)
  rw [decodeFrame, if_neg h0, if_neg h1]

theorem decodeFrame_of_not_markerOk {p : Params} {w : List Byte} (h : ¬MarkerOk w) :
    decodeFrame p w = .invalid .badMarker := by
  unfold MarkerOk at h
  unfold decodeFrame
  split
  · rfl
  · split
    · rfl
    · rename_i h0 h1
      exact absurd ⟨fun a => by_contra fun b => h0 ⟨a, b⟩, fun a => by_contra fun b => h1 ⟨a, b⟩⟩ h

/-- What Complete says (R128, R130). -/
theorem decodeFrame_complete {p : Params} {w : List Byte} {m : Message} {k : Nat}
    (h : decodeFrame p w = .complete m k) :
    MarkerOk w ∧ 12 + lengthField p.endian w ≤ w.length ∧ lengthField p.endian w ≤ 2048 ∧
      cksumFn p.cksum (coveredRegion w (lengthField p.endian w)) =
        checksumField p.endian w (lengthField p.endian w) ∧
      k = 12 + lengthField p.endian w ∧
      ∃ cls rc, classify p.reg (typeField p.endian w) (lengthField p.endian w)
          (payloadField w (lengthField p.endian w)) = .ok cls rc ∧
        m = messageOf p w (lengthField p.endian w) cls rc := by
  by_cases hm : MarkerOk w
  · rw [decodeFrame_of_markerOk hm] at h
    split at h
    · cases h
    · split at h
      · cases h
      · unfold decodeBody at h
        split at h
        · cases h
        · split at h
          · cases h
          · unfold decodeFields at h
            split at h
            · rename_i cls rc hc
              rename_i hlen hck _
              cases h
              exact ⟨hm, by omega, by omega, by simpa using hck, rfl, cls, rc, hc, rfl⟩
            · cases h
  · rw [decodeFrame_of_not_markerOk hm] at h
    cases h

theorem decodeFrame_nil (p : Params) : decodeFrame p [] = .incomplete := rfl

theorem decodeFrame_invalid_nonempty {p : Params} {w : List Byte} {e : FrameError}
    (h : decodeFrame p w = .invalid e) : w ≠ [] := by
  rintro rfl
  cases h

/-- What Incomplete says (R129). -/
theorem decodeFrame_incomplete {p : Params} {w : List Byte} (h : decodeFrame p w = .incomplete) :
    MarkerOk w ∧ (w.length < 10 ∨
      lengthField p.endian w ≤ 2048 ∧ w.length < 12 + lengthField p.endian w) := by
  by_cases hm : MarkerOk w
  · refine ⟨hm, ?_⟩
    rw [decodeFrame_of_markerOk hm] at h
    split at h
    · exact .inl ‹_›
    · split at h
      · cases h
      · unfold decodeBody at h
        split at h
        · exact .inr ⟨by omega, ‹_›⟩
        · split at h
          · cases h
          · unfold decodeFields at h
            split at h <;> cases h
  · rw [decodeFrame_of_not_markerOk hm] at h
    cases h

end Sys2Proof.Machine
end

