-- ==== Sys2Proof/Laws/Engine.lean ====
section
/-! SUPPORT. What the engine can do (spec/43_synchronizer.md R186 to R197): no action is enabled exactly in a
quiescent state, what each enabled action needs and leaves, and one induction for the drain. -/

namespace Sys2Proof.Machine

theorem enabledSeek_eq_none_iff (w : List Byte) : enabledSeek w = none ↔ seekWaits w = true := by
  unfold enabledSeek
  cases seekWaits w <;> simp [apply_ite (· = none)]

theorem enabledAcc_eq_none_iff (r : DecodeResult) : enabledAcc r = none ↔ r = .incomplete := by
  cases r <;> simp [enabledAcc]

theorem enabled_eq_none_iff (s : State) : s.enabled = none ↔ s.inReady = true := by
  unfold State.enabled State.inReady State.quiescent
  cases s.st <;> simp [enabledSeek_eq_none_iff, enabledAcc_eq_none_iff]

/-- What an enabled action needs (R192 to R197). -/
theorem enabled_cases {s : State} {a : Action} (h : s.enabled = some a) :
    (a = .skip ∧ s.st = .seek ∧ seekWaits s.win = false ∧ (byteAt s.win 0 ≠ 0x44 ∨ byteAt s.win 1 ≠ 0x46)) ∨
    (a = .lock ∧ s.st = .seek ∧ seekWaits s.win = false ∧ byteAt s.win 0 = 0x44 ∧ byteAt s.win 1 = 0x46) ∨
    (∃ m k, a = .accept m k ∧ s.st = .acc ∧ decodeFrame s.cfg s.win = .complete m k) ∨
    (∃ e, a = .reject e ∧ s.st = .acc ∧ decodeFrame s.cfg s.win = .invalid e) := by
  unfold State.enabled at h
  cases hst : s.st <;> rw [hst] at h
  · simp only [enabledSeek] at h
    split at h
    · cases h
    · rename_i hw
      have hw' : seekWaits s.win = false := by simpa using hw
      split at h
      · exact .inl ⟨by cases h; rfl, rfl, hw', .inl ‹_›⟩
      · split at h
        · exact .inl ⟨by cases h; rfl, rfl, hw', .inr ‹_›⟩
        · exact .inr (.inl ⟨by cases h; rfl, rfl, hw', by simpa using ‹¬byteAt s.win 0 ≠ 0x44›, by
            simpa using ‹¬byteAt s.win 1 ≠ 0x46›⟩)
  · unfold enabledAcc at h
    dsimp only at h
    split at h
    · cases h
    · rename_i m k hd
      exact .inr (.inr (.inl ⟨m, k, by cases h; rfl, rfl, hd⟩))
    · rename_i e hd
      exact .inr (.inr (.inr ⟨e, by cases h; rfl, rfl, hd⟩))

theorem seekWaits_false_length {w : List Byte} (h : seekWaits w = false) : 1 ≤ w.length := by
  cases w <;> simp_all [seekWaits]

/-- In SEEK with `0x44` in front, a state that does not wait holds two bytes. -/
theorem seekWaits_false_two {w : List Byte} (h : seekWaits w = false) (h0 : byteAt w 0 = 0x44) : 2 ≤ w.length := by
  match w with
  | [] => simp [seekWaits] at h
  | [a] => simp_all [seekWaits]
  | a :: b :: rest => simp

/-- What every action leaves of the fields it does not write (R186). -/
theorem perform_frame (s : State) (a : Action) :
    (s.perform a).faults = s.faults ∧ (s.perform a).cfg = s.cfg ∧ (s.perform a).taken = s.taken ∧
      (s.perform a).pending = s.pending ∧ (s.perform a).owner = s.owner ∧ (s.perform a).result = s.result := by
  cases a <;> simp [State.perform]

/-- An action that holds at every enabled step holds of the whole drain (R188). -/
theorem drainUpTo_keeps {P : State → Prop} (hp : ∀ s a, s.enabled = some a → P s → P (s.perform a)) :
    ∀ (n : Nat) (s : State), P s → P (s.drainUpTo n)
  | 0, _, h => h
  | n + 1, s, h => by
    unfold State.drainUpTo
    split
    · exact h
    · exact drainUpTo_keeps hp n _ (hp _ _ ‹_› h)

theorem drain_keeps {P : State → Prop} (hp : ∀ s a, s.enabled = some a → P s → P (s.perform a)) {s : State}
    (h : P s) : P s.drain := drainUpTo_keeps hp _ _ h

/-- A quiescent state is its own drain (R188). -/
theorem drain_of_inReady {s : State} (h : s.inReady = true) : s.drain = s := by
  have hn := (enabled_eq_none_iff s).2 h
  unfold State.drain
  cases hm : s.mu <;> simp [State.drainUpTo, hn]

theorem whenReady_of_inReady {s : State} (h : s.inReady = true) (t : State) : s.whenReady t = t := by
  simp [State.whenReady, h]

theorem whenReady_of_busy {s : State} (h : s.inReady = false) (t : State) :
    s.whenReady t = s.mark .feedWhileBusy := by
  simp [State.whenReady, h]

/-- Every action lowers `mu` (R189). -/
theorem perform_mu_lt {s : State} {a : Action} (h : s.enabled = some a) : (s.perform a).mu < s.mu := by
  rcases enabled_cases h with ⟨rfl, hst, hw, -⟩ | ⟨rfl, hst, -, -, -⟩ | ⟨m, k, rfl, hst, hd⟩ | ⟨e, rfl, hst, hd⟩
  · have := seekWaits_false_length hw
    simp [State.mu, State.perform, hst]; omega
  · simp [State.mu, State.perform, hst]
  · obtain ⟨-, hlen, -, -, hk, -⟩ := decodeFrame_complete hd
    simp [State.mu, State.perform, hst]; omega
  · have := List.length_pos_iff.2 (decodeFrame_invalid_nonempty hd)
    simp [State.mu, State.perform, hst]; omega

end Sys2Proof.Machine
end

