-- ==== Sys2Proof/Laws/Memory.lean ====
section
/-! SUPPORT. Every operation on the window keeps its form (spec/10_state.md R22, R23). -/

namespace Sys2Proof.Machine

theorem reset_window_wf : Memory.wf State.reset.win = true := rfl

theorem memWrite_window_wf {s : State} (b : Byte) (h : s.win.length < winCap) :
    Memory.wf (s.memWrite b).win = true := by
  simp [Memory.wf]; omega

theorem dropBytes_window_wf {s : State} (k : Nat) (h : Memory.wf s.win = true) :
    Memory.wf (s.dropBytes k).win = true := by
  simp [Memory.wf] at *; omega

theorem resetSync_window_wf (s : State) : Memory.wf s.resetSync.win = true := rfl

end Sys2Proof.Machine
end

