-- ==== Sys2Proof/Laws/PerInstr.lean ====
section
/-! SUPPORT. For every instruction: its encoding matches the match and mask of its row of the opcode table, and an
instruction without an encoding is a row without one (spec/30_encoding.md R78). -/

namespace Sys2Proof.Laws.TableRow

open Sys2Proof.Machine

/-- The encoded word under the row's mask is the row's match; a row has a word exactly when it has a match. -/
def Statement (i : Instr) : Prop :=
  match encode i, i.bitRow with
  | some w, some r => w.bits &&& r.mask = r.mtch
  | none, none => i.unencoded = true
  | some _, none => False
  | none, some _ => False

theorem command_bits (op : BitVec 2) (d : Byte) : (op ++ d).toNat &&& 0x300 = op.toNat * 0x100 := by
  have h : (op ++ d) &&& 0x300#10 = op ++ 0#8 := by
    apply BitVec.eq_of_getLsbD_eq
    intro i hi
    rw [BitVec.getLsbD_and, BitVec.getLsbD_append, BitVec.getLsbD_append]
    by_cases h8 : i < 8
    · rw [if_pos h8, if_pos h8]
      have : (0x300#10).getLsbD i = false := by interval_cases i <;> rfl
      simp [this]
    · rw [if_neg h8, if_neg h8]
      have : (0x300#10).getLsbD i = true := by
        obtain rfl | rfl : i = 8 ∨ i = 9 := by omega
        all_goals rfl
      simp [this]
  have h' := congrArg BitVec.toNat h
  rw [BitVec.toNat_and, BitVec.toNat_append, BitVec.toNat_append] at h'
  rw [BitVec.toNat_append]
  simpa [Nat.shiftLeft_eq] using h'

theorem type_bits (top : BitVec 1) (base : BitVec 15) : (top ++ base).toNat &&& 0x8000 = top.toNat * 0x8000 := by
  have h : (top ++ base) &&& 0x8000#16 = top ++ 0#15 := by
    apply BitVec.eq_of_getLsbD_eq
    intro i hi
    rw [BitVec.getLsbD_and, BitVec.getLsbD_append, BitVec.getLsbD_append]
    by_cases h15 : i < 15
    · rw [if_pos h15, if_pos h15]
      have : (0x8000#16).getLsbD i = false := by interval_cases i <;> rfl
      simp [this]
    · obtain rfl : i = 15 := by omega
      rw [if_neg h15, if_neg h15]
      simp
  have h' := congrArg BitVec.toNat h
  rw [BitVec.toNat_and, BitVec.toNat_append, BitVec.toNat_append] at h'
  rw [BitVec.toNat_append]
  simpa [Nat.shiftLeft_eq] using h'

theorem nop (d : Byte) : Statement (.nop d) := command_bits 0 d
theorem feed (b : Byte) : Statement (.feed b) := command_bits 1 b
theorem reset (d : Byte) : Statement (.reset d) := command_bits 2 d
theorem rsvd (d : Byte) : Statement (.rsvd d) := command_bits 3 d
theorem ack (base : BitVec 15) (len : U16) (pl : List Byte) : Statement (.ack base len pl) := type_bits 1 base
theorem cmdHi (len : U16) (pl : List Byte) : Statement (.cmdHi len pl) := by
  simp [Statement, encode, Instr.bitRow, TableWord.bits]
theorem cmd (base : BitVec 15) (len : U16) (pl : List Byte) : Statement (.cmd base len pl) := type_bits 0 base
theorem unknown (base : BitVec 15) (len : U16) (pl : List Byte) : Statement (.unknown base len pl) :=
  type_bits 0 base
theorem markerD : Statement .markerD := rfl
theorem markerF : Statement .markerF := rfl
theorem evDecoded : Statement .evDecoded := rfl
theorem evBadMarker : Statement .evBadMarker := rfl
theorem evChecksumMismatch : Statement .evChecksumMismatch := rfl
theorem evLengthMismatch : Statement .evLengthMismatch := rfl
theorem evUnknownType : Statement .evUnknownType := rfl
theorem evRsvd (low : BitVec 2) : Statement (.evRsvd low) := by
  unfold Statement
  simp only [encode, Instr.bitRow, TableWord.bits]
  revert low
  decide
theorem skip : Statement .skip := rfl
theorem lock : Statement .lock := rfl
theorem accept : Statement .accept := rfl
theorem reject : Statement .reject := rfl
theorem ckCompute (m0 m1 : Byte) (id : U32) (type len : U16) (pl : List Byte) :
    Statement (.ckCompute m0 m1 id type len pl) := rfl
theorem ckVerify (f : List Byte) : Statement (.ckVerify f) := rfl
theorem decode (w : List Byte) : Statement (.decode w) := rfl
theorem classify (type len : U16) (pl : List Byte) : Statement (.classify type len pl) := rfl

end Sys2Proof.Laws.TableRow
end

