-- ==== Sys2Proof/Laws/Port.lean ====
section
/-! SUPPORT. When a presented configuration is the one in force (spec/00_scope.md R7, spec/70_reset_and_hazards.md
R286). -/

namespace Sys2Proof.Machine

/-- A code that is neither Hi's nor listed is not registered (R7). -/
theorem registrySize_unlisted {r : Registry} {base : BitVec 15} (h1 : base ≠ 1)
    (h : base ∉ r.others.map Prod.fst) : registrySize r base = none := by
  rw [registrySize, if_neg h1, List.lookup_eq_none_iff]
  intro e he
  rw [bne_iff_ne]
  rintro rfl
  exact h (List.mem_map_of_mem he)

/-- The registries are compared as partial maps, on all 32768 codes. -/
theorem sameRegistry_iff (r q : Registry) :
    sameRegistry r q = true ↔ ∀ base, registrySize r base = registrySize q base := by
  simp only [sameRegistry, List.all_eq_true, decide_eq_true_eq]
  refine ⟨fun h base => ?_, fun h base _ => h base⟩
  by_cases hb : base ∈ (1 : BitVec 15) :: (r.others ++ q.others).map Prod.fst
  · exact h base hb
  · simp only [List.mem_cons, List.map_append, List.mem_append, not_or] at hb
    rw [registrySize_unlisted hb.1 hb.2.1, registrySize_unlisted hb.1 hb.2.2]

/-- The three parameters are compared one by one. -/
theorem sameParams_iff (p q : Params) :
    sameParams p q = true ↔
      p.endian = q.endian ∧ p.cksum = q.cksum ∧ ∀ base, registrySize p.reg base = registrySize q.reg base := by
  simp only [sameParams, Bool.and_eq_true, decide_eq_true_eq, sameRegistry_iff, and_assoc]

end Sys2Proof.Machine
end

