-- ==== Sys2Proof/Tests/Slice0.lean ====
section
/-! SUPPORT. Tests on small states. Expected values are those of spec/95_test_vectors.md (named in each comment)
or worked out by hand from the rule named. Theorems named witness_<statement> show that the hypotheses of that
statement can be met, clause by clause. -/

/-! Each decision runs in a thread of its own; they are taken one at a time. -/

set_option Elab.async false

namespace Sys2Proof.Tests

open Sys2Proof.Machine

/-! ### Small states, all under REF -/

def seekWith (win : List Byte) (hunt : Bool) : State :=
  { State.reset with cfg := Config.ref, win := win, hunt := hunt }

def accWith (win : List Byte) : State := { State.reset with cfg := Config.ref, st := .acc, win := win }

/-- REF with the base code 7 registered for 2 bytes. -/
def regSeven : State :=
  { State.reset with cfg := { Config.ref with reg := { hiSize := 0, others := [(7, 2)] } } }

/-- The parameters of `regSeven` with the same partial map written otherwise: an entry for Hi and a second one for 7,
neither of which is read. -/
def regSevenAgain : Params := { Config.ref with reg := { hiSize := 0, others := [(1, 9), (7, 2), (7, 3)] } }

def presenting (s : State) (items : List Item) : State := { s with pending := items }

/-- `A` of 95_test_vectors.md. -/
def frameA : List Byte := [0x44, 0x46, 0x01, 0x00, 0x00, 0x00, 0x01, 0x00, 0x00, 0x00, 0x20, 0x0A]

/-- `B` of 95_test_vectors.md. -/
def frameB : List Byte := [0x44, 0x46, 0x01, 0x00, 0x00, 0x00, 0x01, 0x80, 0x01, 0x00, 0x00, 0x42, 0x6B]

/-- `C` of 95_test_vectors.md. -/
def frameC : List Byte :=
  [0x44, 0x46, 0x78, 0x56, 0x34, 0x12, 0x05, 0x00, 0x03, 0x00, 0x61, 0x62, 0x63, 0x7C, 0xFD]

/-- `C` with checksum `7C FC` (V-DEC-14). -/
def frameCBad : List Byte :=
  [0x44, 0x46, 0x78, 0x56, 0x34, 0x12, 0x05, 0x00, 0x03, 0x00, 0x61, 0x62, 0x63, 0x7C, 0xFC]

/-- The header of V-DEC-22, `L` = 65535. -/
def headerLong : List Byte := [0x44, 0x46, 0x00, 0x00, 0x00, 0x00, 0x05, 0x00, 0xFF, 0xFF]

/-- The record of V-DEC-10. -/
def messageA : Message :=
  { id := 1, type := 0x0001, ack := false, base := 1, cls := .cmd, len := 0, payload := [], rc := none, consumed := 12 }

/-- The record of V-DEC-11. -/
def messageB : Message :=
  { id := 1, type := 0x8001, ack := true, base := 1, cls := .ack, len := 1, payload := [0x00], rc := some 0x00
    consumed := 13 }

/-- The record of V-DEC-12. -/
def messageC : Message :=
  { id := 0x12345678, type := 0x0005, ack := false, base := 5, cls := .unknown, len := 3, payload := [0x61, 0x62, 0x63]
    rc := none, consumed := 15 }

/-! ### Well-formedness refuses each ill-formed term -/

theorem test_wf_length_over_2048 : (Instr.ack 1 2049 (List.replicate 2049 0)).wf = false := by decide +kernel
theorem test_wf_payload_not_the_length : (Instr.classify 5 2 [0x61]).wf = false := by decide
theorem test_wf_cmd_base_one : (Instr.cmd 1 0 []).wf = false := by decide
theorem test_wf_unknown_base_one : (Instr.unknown 1 0 []).wf = false := by decide
theorem test_wf_rsvd_code_four : (Instr.evRsvd 0).wf = false := by decide
theorem test_wf_compute_payload_over_2048 : (Instr.ckCompute 0x44 0x46 0 5 0 (List.replicate 2049 0)).wf = false := by
  decide +kernel
theorem test_wf_accepts : (Instr.cmd 7 2 [1, 2]).wf = true := by decide

/-! ### Decoding, by words written out from the encodings -/

/-- R73, R74: the op bits, then the data bits. -/
theorem test_decode_nop : decodeCommand 0b00_1010_0101 = .nop 0xA5 := by decide
theorem test_decode_feed : decodeCommand 0b01_0100_0110 = .feed 0x46 := by decide
theorem test_decode_reset : decodeCommand 0b10_0000_0001 = .reset 0x01 := by decide
theorem test_decode_rsvd : decodeCommand 0b11_1111_1111 = .rsvd 0xFF := by decide
/-- R69, R62: bit 15, then the base code. -/
theorem test_decode_ack : decodeType Config.ref.reg 0b1000_0000_0000_0000 1 [9] = .ok (.ack 0 1 [9]) := by decide
theorem test_decode_cmdHi : decodeType Config.ref.reg 0b0000_0000_0000_0001 1 [9] = .ok (.cmdHi 1 [9]) := by decide
theorem test_decode_cmd :
    decodeType regSeven.cfg.reg 0b0000_0000_0000_0111 2 [1, 2] = .ok (.cmd 7 2 [1, 2]) := by decide
theorem test_decode_unknown :
    decodeType Config.ref.reg 0b0111_1111_1111_1111 0 [] = .ok (.unknown 0x7FFF 0 []) := by decide
theorem test_decode_type_refuses : decodeType Config.ref.reg 5 1 [] = .error .classOperands := by decide
/-- R68. -/
theorem test_decode_markers : decodeMarker 0b0100_0100 = .ok .markerD ∧ decodeMarker 0b0100_0110 = .ok .markerF ∧
    decodeMarker 0b0100_0101 = .error .notAMarkerByte := by decide
/-- R71. -/
theorem test_decode_events : [0b000, 0b001, 0b010, 0b011, 0b100, 0b101, 0b111].map decodeEvent =
    [.evDecoded, .evBadMarker, .evChecksumMismatch, .evLengthMismatch, .evUnknownType, .evRsvd 0b01, .evRsvd 0b11] := by
  decide
/-- The host's numbered words (log entry 15). -/
theorem test_table_words :
    [decodeTableWord 16 0x000, decodeTableWord 16 0x100, decodeTableWord 16 0x200, decodeTableWord 16 0x300,
      decodeTableWord 16 0x8000, decodeTableWord 16 0x0001, decodeTableWord 8 0x44, decodeTableWord 8 0x46,
      decodeTableWord 8 4, decodeTableWord 8 0x45] =
    [some (.nop 0), some (.feed 0), some (.reset 0), some (.rsvd 0), some (.ack 0 0 []), some (.cmdHi 0 []),
      some .markerD, some .markerF, some .evUnknownType, none] := by decide

/-! ### Host transactions (2.6 of 95_test_vectors.md) -/

/-- V-HOST-1. -/
theorem test_nop : nextOf (exec (.nop 0xFF) (accWith [0x44, 0x46])) = some (accWith [0x44, 0x46]) := by
  decide +kernel

/-- P1, byte 11. -/
theorem test_feed_completes_a_frame :
    (nextOf (exec (.feed 0x0A) (accWith (frameA.take 11)))).map (fun t => (t.out, t.st, t.win, t.hunt, t.head)) =
      some ([⟨.decoded messageA, 0⟩], .seek, [], false, 12) := by decide +kernel

/-- P3, byte 23: the outer frame is rejected, the inner one is found, and the trailing byte is reported. -/
theorem test_feed_finds_the_inner_frame :
    (nextOf (exec (.feed 0x8B) (accWith
      ([0x44, 0x46, 0x09, 0x00, 0x00, 0x00, 0x05, 0x00, 0x0C, 0x00] ++ frameA ++ [0x61])))).map
      (fun t => (t.out, t.st, t.win, t.hunt, t.head)) =
    some ([⟨.error .checksumMismatch, 0⟩, ⟨.decoded messageA, 10⟩, ⟨.error .badMarker, 22⟩], .seek, [], true, 24) := by
  decide +kernel

/-- V-HOST-2, P6. -/
theorem test_reset : (nextOf (exec (.reset 0xA5) (accWith (frameC.take 7)))).map
    (fun t => (t.out, t.st, t.win, t.hunt)) = some ([], .seek, [], false) := by decide +kernel

/-- V-HOST-4. -/
theorem test_rsvd : (nextOf (exec (.rsvd 0xFF) (accWith [0x44, 0x46]))).map (fun t => (t.faults, t.win)) =
    some (⟨false, false, true, false⟩, [0x44, 0x46]) := by decide +kernel

/-- R283, by hand: a window that must be skipped is not ready. -/
theorem test_feed_while_busy : (nextOf (exec (.feed 0x44) (seekWith [0x13] false))).map (fun t => (t.faults, t.win)) =
    some (⟨true, false, false, false⟩, [0x13]) := by decide +kernel

/-! ### Marker bytes -/

/-- V-SYN-3. -/
theorem test_markerD : (nextOf (exec .markerD (seekWith [] false))).map (fun t => (t.st, t.win, t.out)) =
    some (.seek, [0x44], []) := by decide +kernel

/-- V-SYN-4. -/
theorem test_markerF : (nextOf (exec .markerF (seekWith [0x44] false))).map (fun t => (t.st, t.win, t.out)) =
    some (.acc, [0x44, 0x46], []) := by decide +kernel

/-! ### Type classes (2.3 of 95_test_vectors.md) -/

/-- V-CLS-4 and V-CLS-2. -/
theorem test_ack : (nextOf (exec (.ack 0 1 [0x09]) (seekWith [] false))).map State.result =
      some (some (.classified (.ok .ack (some 0x09)))) ∧
    (nextOf (exec (.ack 1 2 [0, 0]) (seekWith [] false))).map State.result = some (some (.classified .bad)) := by
  decide +kernel

/-- V-CLS-6 and V-CLS-1. -/
theorem test_cmdHi : (nextOf (exec (.cmdHi 0 []) (seekWith [] false))).map State.result =
      some (some (.classified (.ok .cmd none))) ∧
    (nextOf (exec (.cmdHi 1 [0x7F]) (seekWith [] false))).map State.result = some (some (.classified .bad)) := by
  decide +kernel

/-- R162 by hand: base code 7 registered for 2 bytes. -/
theorem test_cmd : (nextOf (exec (.cmd 7 2 [1, 2]) regSeven)).map State.result =
      some (some (.classified (.ok .cmd none))) ∧
    (nextOf (exec (.cmd 7 3 [1, 2, 3]) regSeven)).map State.result = some (some (.classified .bad)) := by
  decide +kernel

/-- V-CLS-5. -/
theorem test_unknown : (nextOf (exec (.unknown 5 3 [0x61, 0x62, 0x63]) (seekWith [] false))).map State.result =
    some (some (.classified (.ok .unknown none))) := by decide +kernel

/-- R160 by hand: the ACK bit is looked at before the registry. -/
theorem test_classify : (nextOf (exec (.classify 0x8007 1 [4]) regSeven)).map State.result =
      some (some (.classified (.ok .ack (some 4)))) ∧
    (nextOf (exec (.classify 0x0007 1 [4]) regSeven)).map State.result = some (some (.classified .bad)) := by
  decide +kernel

/-! ### Engine actions and event codes (2.5 of 95_test_vectors.md) -/

/-- V-SYN-1 and V-SYN-2. -/
theorem test_skip : (nextOf (exec .skip (seekWith [0x13] false))).map (fun t => (t.out, t.win, t.hunt, t.head)) =
      some ([⟨.error .badMarker, 0⟩], [], true, 1) ∧
    (nextOf (exec .skip (seekWith [0x27] true))).map (fun t => (t.out, t.win, t.hunt)) = some ([], [], true) := by
  decide +kernel

/-- V-SYN-5: `44 44` is skipped, not locked. -/
theorem test_lock : (nextOf (exec .lock (seekWith [0x44, 0x46] true))).map (fun t => (t.st, t.hunt)) =
      some (.acc, true) ∧
    refusalOf (exec .lock (seekWith [0x44, 0x44] false)) = some .notEnabled := by decide +kernel

/-- V-SYN-6: the byte after the frame stays. -/
theorem test_accept : (nextOf (exec .accept (accWith (frameB ++ [0x44])))).map (fun t => (t.out, t.st, t.win, t.head)) =
    some ([⟨.decoded messageB, 0⟩], .seek, [0x44], 13) := by decide +kernel

/-- V-SYN-9, the REJECT alone: one byte is dropped. -/
theorem test_reject : (nextOf (exec .reject (accWith frameCBad))).map (fun t => (t.out, t.st, t.win, t.hunt)) =
    some ([⟨.error .checksumMismatch, 0⟩], .seek, frameCBad.drop 1, true) := by decide +kernel

theorem test_evDecoded : (nextOf (exec .evDecoded (accWith frameC))).map State.out =
    some [⟨.decoded messageC, 0⟩] := by decide +kernel
theorem test_evBadMarker : (nextOf (exec .evBadMarker (seekWith [0x46] false))).map State.out =
      some [⟨.error .badMarker, 0⟩] ∧
    refusalOf (exec .evBadMarker (seekWith [0x46] true)) = some .notEnabled := by decide +kernel
theorem test_evChecksumMismatch : (nextOf (exec .evChecksumMismatch (accWith frameCBad))).map State.out =
    some [⟨.error .checksumMismatch, 0⟩] := by decide +kernel
theorem test_evLengthMismatch : (nextOf (exec .evLengthMismatch (accWith headerLong))).map State.out =
    some [⟨.error .lengthMismatch, 0⟩] := by decide +kernel
theorem test_evUnknownType : refusalOf (exec .evUnknownType (accWith frameC)) = some (.neverEmitted 4) := by
  decide +kernel
theorem test_evRsvd : refusalOf (exec (.evRsvd 3) (accWith frameC)) = some (.neverEmitted 7) := by decide +kernel

/-! ### Pure functions -/

/-- V-CK-1 and V-CK-2. -/
theorem test_crc : crc16CcittFalse [0x31, 0x32, 0x33, 0x34, 0x35, 0x36, 0x37, 0x38, 0x39] = 0x29B1 ∧
    crc16CcittFalse [] = 0xFFFF := by decide +kernel

/-- V-CK-7 and V-CK-9. -/
theorem test_ckCompute :
    (nextOf (exec (.ckCompute 0x44 0x46 0x12345678 5 3 [0x61, 0x62, 0x63]) (seekWith [] false))).map State.result =
      some (some (.checksum 0xFD7C)) ∧
    (nextOf (exec (.ckCompute 0x44 0x46 0 5 1 []) (seekWith [] false))).map State.result =
      some (some (.checksum 0xB433)) := by decide +kernel

/-- V-CK-4, V-CK-5, V-CK-6. -/
theorem test_ckVerify : [frameA, frameA.take 11 ++ [0x0B], frameA.take 11].map
    (fun f => (nextOf (exec (.ckVerify f) (seekWith [] false))).map State.result) =
    [some (some (.verified true)), some (some (.verified false)), some (some (.verified false))] := by decide +kernel

/-- V-DEC-1 to V-DEC-9, V-DEC-14, V-DEC-16 to V-DEC-19, V-DEC-20 to V-DEC-22. -/
theorem test_decode_row : [[], [0x44], [0x45], [0x44, 0x47], [0x44, 0x46], frameA.take 9, frameA.take 10,
      frameA.take 11, 0x45 :: frameA.drop 1, frameCBad, frameC.set 7 0x80, frameC.set 8 0x02, frameC.set 8 0x07,
      [0x44, 0x46, 0, 0, 0, 0, 5, 0, 1, 8], [0x44, 0x46, 0, 0, 0, 0, 5, 0, 0, 8], headerLong].map
    (fun w => (nextOf (exec (.decode w) (seekWith [] false))).map State.result) =
    [.incomplete, .incomplete, .invalid .badMarker, .invalid .badMarker, .incomplete, .incomplete, .incomplete,
      .incomplete, .invalid .badMarker, .invalid .checksumMismatch, .invalid .checksumMismatch,
      .invalid .checksumMismatch, .incomplete, .invalid .lengthMismatch, .incomplete,
      .invalid .lengthMismatch].map (fun r => some (some (FnResult.decoded r))) := by decide +kernel

/-- V-DEC-11 to V-DEC-13, V-CLS-1 to V-CLS-3, and V-BE-1 to V-BE-3 under BE. -/
theorem test_decode_row_frames : [frameB, frameC, frameA ++ [0x99], frame Config.ref 3 1 [0x7F],
      frame Config.ref 4 0x8001 [0, 0], frame Config.ref 4 0x8001 []].map (decodeFrame Config.ref) =
      [.complete messageB 13, .complete messageC 15, .complete messageA 12, .invalid .lengthMismatch,
        .invalid .lengthMismatch, .invalid .lengthMismatch] ∧
    [[0x44, 0x46, 0x00, 0x00, 0x00, 0x01, 0x00, 0x01, 0x00, 0x00, 0xA6, 0x26],
      [0x44, 0x46, 0x12, 0x34, 0x56, 0x78, 0x00, 0x05, 0x00, 0x03, 0x61, 0x62, 0x63, 0xE9, 0x5D],
      [0x44, 0x46, 0x00, 0x00, 0x00, 0x01, 0x80, 0x01, 0x00, 0x01, 0x00, 0xE2, 0xCD]].map
        (decodeFrame { Config.ref with endian := .be }) =
      [.complete messageA 12, .complete messageC 15, .complete messageB 13] := by decide +kernel

/-- The frames of 95_test_vectors.md, built by the helpers of R16. -/
theorem test_frame_helpers : frame Config.ref 1 0x0001 [] = frameA ∧ frame Config.ref 1 0x8001 [0x00] = frameB ∧
    frame Config.ref 0x12345678 0x0005 [0x61, 0x62, 0x63] = frameC ∧
    frameCk Config.ref 0x12345678 0x0005 [0x61, 0x62, 0x63] 0xFC7C = frameCBad := by decide +kernel

/-! ### The port -/

/-- R284 and R286, one step each. -/
theorem test_port_hazards :
    (nextOf (step { presenting regSeven [.transaction 2 0x144] with owner := some 1 })).map
      (fun t => (t.faults.concurrentFeed, t.win, t.pending)) = some (true, [], []) ∧
    (nextOf (step { presenting regSeven [.configure Config.ref] with owner := some 1 })).map
      (fun t => (t.faults.configChanged, decide (t.cfg = regSeven.cfg))) = some (true, true) ∧
    (nextOf (step { presenting regSeven [.configure regSevenAgain] with owner := some 1 })).map
      (fun t => t.faults.configChanged) = some false ∧
    (nextOf (step (presenting regSeven [.configure Config.ref]))).map (fun t => decide (t.cfg = Config.ref)) =
      some true := by decide +kernel

/-- R77: a line FEEDS presents one FEED per byte, in order. -/
theorem test_feeds : feedsItems 0 [0x13, 0x44] = [.transaction 0 0x113, .transaction 0 0x144] := by decide

/-- Each row the host can number runs as the first step after construction (log entry 24); event codes 4 to 7 are
refused by name. -/
theorem test_first_step : [(16, 0x000), (16, 0x1FF), (16, 0x200), (16, 0x300), (16, 0x8000), (16, 0x0001), (16, 0x7FFF),
      (8, 0x44), (8, 0x46), (8, 0), (8, 1), (8, 2), (8, 3)].map
      (fun x => (nextOf (step (State.reset.withFetchWord x.1 x.2))).isSome) = List.replicate 13 true ∧
    refusalOf (step (State.reset.withFetchWord 8 4)) = some (.neverEmitted 4) := by decide +kernel

/-- R71, R69, R72, R21: the numeric codes. -/
theorem test_codes : (Event.error .lengthMismatch).code = 3 ∧ FrameClass.unknown.code = 2 ∧
    (DecodeResult.invalid .badMarker).status = 2 ∧ SyncState.acc.code = 1 := by decide

/-! ### Witnesses: the hypotheses of the statements can be met -/

theorem witness_ObservationOfARun :
    ({ State.reset with faults := ⟨false, false, true, false⟩ } : State).faults.has .reservedOp = true ∧
    ∀ f, (seekWith [0x44] true).faults.has f = false := ⟨rfl, fun f => by cases f <;> rfl⟩

theorem witness_NopLeavesTheWholeState : State.reset.inReady = true ∧ (accWith [0x44, 0x46]).inReady = true := by
  decide +kernel

theorem witness_ResetWritesTheResetValues :
    exec (.reset 0) (accWith [0x44, 0x46]) = .next (seekWith [] false) := rfl

theorem witness_ReservedOpLeavesOnlyItsMark : (seekWith [0x44] true).inReady = true := by decide +kernel

theorem witness_BusyTransactionLeavesOnlyItsMark : (seekWith [0x13] false).inReady = false ∧
    (accWith frameA).inReady = false := by decide +kernel

theorem witness_FeedAppendsAndRunsToQuiescence : (accWith (frameA.take 11)).inReady = true := by decide +kernel

theorem witness_FeedFrame : (seekWith [] false).inReady = true := by decide +kernel

theorem witness_FeedOfAStrayByteIsSkipped : (seekWith [] false).st = .seek ∧ (seekWith [] false).win = [] ∧
    (0x45 : Byte) ≠ 0x44 := by decide

theorem witness_MarkerBytesOpenACandidate : (seekWith [] true).st = .seek ∧ (seekWith [] true).win = [] ∧
    (seekWith [0x44] false).st = .seek ∧ (seekWith [0x44] false).win = [0x44] := by decide

theorem witness_SkipDropsOneByteAndReportsOnce : (seekWith [0x46] false).st = .seek ∧
    (1 ≤ (seekWith [0x46] false).win.length ∧ byteAt (seekWith [0x46] false).win 0 ≠ 0x44) ∧
    (2 ≤ (seekWith [0x44, 0x44] true).win.length ∧ byteAt (seekWith [0x44, 0x44] true).win 0 = 0x44 ∧
      byteAt (seekWith [0x44, 0x44] true).win 1 ≠ 0x46) := by decide

theorem witness_LockBeginsACandidate : (seekWith [0x44, 0x46] false).st = .seek ∧
    2 ≤ (seekWith [0x44, 0x46] false).win.length ∧ byteAt (seekWith [0x44, 0x46] false).win 0 = 0x44 ∧
    byteAt (seekWith [0x44, 0x46] false).win 1 = 0x46 := by decide

theorem witness_AcceptEmitsAndDropsTheFrame : (accWith frameB).st = .acc ∧
    decodeFrame (accWith frameB).cfg (accWith frameB).win = .complete messageB 13 := by decide +kernel

theorem witness_RejectReportsAndDropsOneByte : (accWith frameCBad).st = .acc ∧
    decodeFrame (accWith frameCBad).cfg (accWith frameCBad).win = .invalid .checksumMismatch ∧
    startsWithMarker (accWith frameCBad).win = true := by decide +kernel

theorem witness_ExactlyOneActionUnlessQuiescent : (seekWith [0x13] false).inReady = false ∧
    (seekWith [0x44] false).inReady = true := by decide +kernel

theorem witness_EventRowsOfACandidate : (accWith frameC).st = .acc ∧
    decodeFrame (accWith frameC).cfg (accWith frameC).win = .complete messageC 15 ∧
    decodeFrame (accWith frameCBad).cfg (accWith frameCBad).win = .invalid .checksumMismatch ∧
    decodeFrame (accWith headerLong).cfg (accWith headerLong).win = .invalid .lengthMismatch := by decide +kernel

theorem witness_EventRowOfAHunt : (seekWith [0x00] false).st = .seek ∧ (seekWith [0x00] false).hunt = false ∧
    (1 ≤ (seekWith [0x00] false).win.length ∧ byteAt (seekWith [0x00] false).win 0 ≠ 0x44) ∧
    (seekWith [0x44, 0x00] true).hunt = true ∧ (2 ≤ (seekWith [0x44, 0x00] true).win.length ∧
      byteAt (seekWith [0x44, 0x00] true).win 0 = 0x44 ∧ byteAt (seekWith [0x44, 0x00] true).win 1 ≠ 0x46) := by decide

theorem witness_EventRowsStopUnlessTheirEventIsNext : (seekWith [0x46] true).enabled = some .skip ∧
    (Action.skip.event (seekWith [0x46] true).hunt).map Event.code ≠ some 1 ∧ (seekWith [] true).enabled = none := by
  decide +kernel

theorem witness_ComputeIsTheChecksumOfTheFields : (List.replicate 2048 (0xFF : Byte)).length ≤ 2048 ∧
    ([] : List Byte).length ≤ 2048 := ⟨by rw [List.length_replicate], Nat.zero_le _⟩

theorem witness_FrameVerifies : (List.replicate 2048 (0x44 : Byte)).length ≤ 2048 := by
  rw [List.length_replicate]

theorem witness_ClassifyByCase : (1 : Nat) ≤ 2048 ∧ [(0x00 : Byte)].length = 1 ∧ (0x8001#16).getLsbD 15 = true ∧
    (0 : Nat) ≠ 1 ∧ (0x0007#16).getLsbD 15 = false ∧ registrySize regSeven.cfg.reg (baseCode 0x0007) = some 2 ∧
    (2 : Nat) = (2 : Fin 2049).val ∧ (3 : Nat) ≠ (2 : Fin 2049).val ∧
    registrySize regSeven.cfg.reg (baseCode 0x0005) = none := by decide

theorem witness_PureRowsWriteOnlyTheirResult : classOperandsOk 0 [] = true ∧
    classOperandsOk 2048 (List.replicate 2048 0x61) = true := by decide +kernel

theorem witness_AckTakesOneByte : classOperandsOk 1 [0x09] = true ∧ classOperandsOk 0 [] = true ∧
    classOperandsOk 2 [0, 0] = true := by decide

theorem witness_CommandTakesItsRegisteredSize : classOperandsOk 2 [1, 2] = true ∧
    registrySize regSeven.cfg.reg 7 = some 2 := by decide

theorem witness_UnknownTypeIsNotAnError : classOperandsOk 3 [1, 2, 3] = true ∧
    registrySize (seekWith [] false).cfg.reg 5 = none := by decide

theorem witness_OperandsOutsideTheDomainAreRefused : classOperandsOk 1 [] = false ∧
    classOperandsOk 2049 (List.replicate 2049 0) = false ∧ 2048 < (List.replicate 2049 (0 : Byte)).length ∧
    registrySize (seekWith [] false).cfg.reg 5 = none ∧ registrySize (seekWith [] false).cfg.reg 1 ≠ none := by
  decide +kernel

theorem witness_TypeRowsAgreeWithClassify :
    decodeType regSeven.cfg.reg 0x0007 2 [1, 2] = .ok (.cmd 7 2 [1, 2]) ∧
    decodeType regSeven.cfg.reg 0x8007 1 [1] = .ok (.ack 7 1 [1]) := by decide

theorem witness_DecodeRejectsABadMarkerAtOnce : (0x45 : Byte) ≠ 0x44 ∧ (0x47 : Byte) ≠ 0x46 := by decide

theorem witness_DecodeAwaitsTheHeader : (frameA.take 9).length < 10 ∧ byteAt (frameA.take 9) 0 = 0x44 ∧
    byteAt (frameA.take 9) 1 = 0x46 := by decide

theorem witness_DecodeBoundsTheLengthThenAwaitsTheFrame :
    10 ≤ [0x44, 0x46, 0, 0, 0, 0, 5, 0, 1, (8 : Byte)].length ∧
    startsWithMarker [0x44, 0x46, 0, 0, 0, 0, 5, 0, 1, 8] = true ∧
    2048 < (memRead16 Config.ref.endian [0x44, 0x46, 0, 0, 0, 0, 5, 0, 1, 8] 8).toNat ∧
    startsWithMarker [0x44, 0x46, 0, 0, 0, 0, 5, 0, 0, 8] = true ∧
    (memRead16 Config.ref.endian [0x44, 0x46, 0, 0, 0, 0, 5, 0, 0, 8] 8).toNat = 2048 ∧
    [0x44, 0x46, 0, 0, 0, 0, 5, 0, 0, (8 : Byte)].length < 12 + 2048 := by decide +kernel

theorem witness_DecodeChecksTheChecksumFirst : startsWithMarker frameCBad = true ∧
    3 = (memRead16 Config.ref.endian frameCBad 8).toNat ∧ 12 + 3 ≤ frameCBad.length ∧
    cksumFn Config.ref.cksum (frameCBad.take (10 + 3)) ≠ memRead16 Config.ref.endian frameCBad (10 + 3) := by
  decide +kernel

theorem witness_DecodeExtractsTheFields : startsWithMarker frameC = true ∧
    3 = (memRead16 Config.ref.endian frameC 8).toNat ∧ 12 + 3 ≤ frameC.length ∧
    cksumFn Config.ref.cksum (frameC.take (10 + 3)) = memRead16 Config.ref.endian frameC (10 + 3) ∧
    classify Config.ref.reg (memRead16 Config.ref.endian frameC 6) 3 ((frameC.drop 10).take 3) = .ok .unknown none ∧
    cksumFn Config.ref.cksum ((frame Config.ref 3 1 [0x7F]).take 11) =
      memRead16 Config.ref.endian (frame Config.ref 3 1 [0x7F]) 11 ∧
    classify Config.ref.reg (memRead16 Config.ref.endian (frame Config.ref 3 1 [0x7F]) 6) 1
      (((frame Config.ref 3 1 [0x7F]).drop 10).take 1) = .bad := by decide +kernel

theorem witness_DecodeDecisionsAreStable : decodeFrame Config.ref frameA ≠ .incomplete ∧
    decodeFrame Config.ref ([0x44] ++ [0x46]) = .incomplete := by decide +kernel

theorem witness_DecodeReadsOnlyTheDeclaredFrame :
    decodeFrame Config.ref (frameA ++ [0x99]) = .complete messageA 12 := by decide +kernel

theorem witness_FrameDecodesToItsFields : classify Config.ref.reg 0x0001 1 [0x7F] = .bad ∧
    classify Config.ref.reg 0x0005 3 [0x61, 0x62, 0x63] = .ok .unknown none := by decide

theorem witness_SingleBitCorruptionIsDetected : SingleBitSensitive (cksumFn Config.ref.cksum) ∧
    decodeFrame Config.ref frameC = .complete messageC frameC.length ∧ 14 < frameC.length ∧
    2048 < (memRead16 Config.ref.endian (flipBit frameC 9 3) 8).toNat ∧
    (memRead16 Config.ref.endian (flipBit frameC 8 2) 8).toNat ≤ 2048 ∧
    messageC.len < (memRead16 Config.ref.endian (flipBit frameC 8 2) 8).toNat :=
  ⟨crc16CcittFalse_singleBitSensitive, by decide +kernel⟩

theorem witness_StepRunsTheDecodedInstruction :
    (presenting regSeven [.transaction 0 0x144]).owner = none ∧ decodeMarker 0x46 = .ok .markerF ∧
    decodeType regSeven.cfg.reg 0x0007 2 [1, 2] = .ok (.cmd 7 2 [1, 2]) ∧ (Instr.decode []).unencoded = true ∧
    State.reset.pending = [] := by decide

theorem witness_PresentedWordIsTheNextInstruction : tableWord 16 0x144 = some (.cmd 0x144) ∧
    decodeTableWord 16 0x144 = some (.feed 0x44) ∧ tableWord 8 0x46 = some (.byte 0x46) ∧
    decodeTableWord 8 0x46 = some .markerF ∧ tableWord 16 0x8001 = some (.typeField 0x8001 0 []) ∧
    decodeTableWord 16 0x8001 = some (.ack 1 0 []) ∧ tableWord 8 2 = some (.event 2) ∧
    decodeTableWord 8 2 = some .evChecksumMismatch := by decide

theorem witness_SecondProducerLeavesOnlyItsMark :
    ({ presenting regSeven [.transaction 2 0x144] with owner := some 1 } : State).owner = some 1 ∧ 2 ≠ 1 ∧
    ({ presenting regSeven [.marker 2 0x44] with owner := some 1 } : State).pending = [.marker 2 0x44] := by decide

theorem witness_ConfigurationIsFixedByTheFirstTransaction :
    ({ presenting regSeven [.configure Config.ref] with owner := some 1 } : State).pending = [.configure Config.ref] ∧
    registrySize Config.ref.reg 7 ≠ registrySize regSeven.cfg.reg 7 ∧
    (presenting regSeven [.configure Config.ref]).owner = none ∧
    ∀ base, registrySize regSevenAgain.reg base = registrySize regSeven.cfg.reg base :=
  ⟨by decide, by decide, by decide, (sameRegistry_iff _ _).1 (by decide)⟩

theorem witness_ConsumerTakesTheNextEvent :
    ({ presenting regSeven [.take] with out := [⟨.error .badMarker, 0⟩] } : State).taken <
      ({ presenting regSeven [.take] with out := [⟨.error .badMarker, 0⟩] } : State).out.length ∧
    (presenting regSeven [.take]).taken = (presenting regSeven [.take]).out.length := by decide

theorem witness_DecodeAndEncodeAgree : (Instr.cmd 7 2 [1, 2]).wf = true ∧
    (Instr.cmd 7 2 [1, 2]).selected regSeven.cfg.reg = true ∧
    encode (.cmd 7 2 [1, 2]) = some (.typeField 0x0007 2 [1, 2]) ∧
    decodeWord regSeven.cfg.reg (.cmd 0x3FF) = .ok (.rsvd 0xFF) := by decide

theorem witness_ReadyWindowHasRoom : (accWith (headerLong.take 9)).inReady = true ∧
    ActionsLead 0 (accWith (headerLong.take 9 ++ [0xFF])) (accWith (headerLong.take 9 ++ [0xFF])) :=
  ⟨by decide +kernel, rfl⟩

/-- A waiting candidate under REF that has fed, emitted and been taken from meets the invariant, and steps. -/
theorem witness_EveryStepKeepsTheInvariant :
    State.Inv { presenting (accWith (frameA.take 11)) [.transaction 1 0x10A] with
      owner := some 1, out := [⟨.error .badMarker, 0⟩], taken := 1 } ∧
    (nextOf (step { presenting (accWith (frameA.take 11)) [.transaction 1 0x10A] with
      owner := some 1, out := [⟨.error .badMarker, 0⟩], taken := 1 })).isSome = true := by
  refine ⟨⟨by decide +kernel, fun h => by simp at h, by decide, ?_⟩, by decide +kernel⟩
  intro e he
  obtain rfl : e = ⟨.error .badMarker, 0⟩ := by simpa using he
  rfl

theorem witness_TransactionsNeverStopTheBlock :
    (presenting regSeven [.transaction 1 0x3FF]).pending = [.transaction 1 0x3FF] := rfl

theorem witness_MarksEventsAndConfigurationOutliveEveryStep :
    (nextOf (step { presenting regSeven [.transaction 1 0x113] with owner := some 1 })).map
      (fun t => (t.out, t.owner)) = some ([⟨.error .badMarker, 0⟩], some 1) := by decide +kernel

/-- From `hunt` = 1: two stray bytes in two FEEDs are not reported; or a frame decodes, then the byte after it is
reported. -/
theorem witness_OneBadMarkerPerHuntRun :
    (seekWith [] true).waiting = true ∧
    (nextOf (feedAll [0x13, 0x27] (seekWith [] true))).map (fun t => (t.out, t.hunt)) = some ([] ++ [], true) ∧
    ({ accWith
      ([0x44, 0x46, 0x09, 0x00, 0x00, 0x00, 0x05, 0x00, 0x0C, 0x00] ++ frameA ++ [0x61]) with hunt := true } : State).waiting
      = true ∧
    (nextOf (feedAll [0x8B] { accWith
      ([0x44, 0x46, 0x09, 0x00, 0x00, 0x00, 0x05, 0x00, 0x0C, 0x00] ++ frameA ++ [0x61]) with hunt := true })).map
      State.out = some ([] ++ [⟨.error .checksumMismatch, 0⟩, ⟨.decoded messageA, 10⟩] ++
        ⟨.error .badMarker, 22⟩ :: []) := by decide +kernel

theorem witness_EventsFollowTheStream : (accWith (frameB.take 12)).inReady = true := by decide +kernel

theorem witness_ChunksCannotBeSeen : (seekWith [0x44] true).inReady = true := by decide +kernel

theorem witness_PartialDeliveryEmitsOnlyAtTheEnd : (seekWith [] true).st = .seek ∧ (seekWith [] true).win = [] ∧
    decodeFrame (seekWith [] true).cfg frameA = .complete messageA frameA.length := by decide +kernel

theorem witness_JunkWithoutAMarkerByteLosesNoFrame : (seekWith [] false).st = .seek ∧ (seekWith [] false).win = [] ∧
    (∀ b ∈ [0x00, 0x11, 0x22, 0x33, (0x55 : Byte)], b ≠ 0x44) ∧
    decodeFrame (seekWith [] false).cfg frameA = .complete messageA frameA.length := by decide +kernel

end Sys2Proof.Tests
end

section
/-! PROOFS. Byte order of the 2- and 4-byte fields (spec/00_scope.md R13). -/

namespace Sys2Proof.Machine

/-- Putting words together is shifting and joining them, at any width. -/
theorem setWidth_append_eq_or {m n : Nat} (h : BitVec m) (l : BitVec n) (w : Nat) :
    (h ++ l).setWidth w = h.setWidth w <<< n ||| l.setWidth w := by
  apply BitVec.eq_of_getLsbD_eq
  intro i hi
  simp only [BitVec.getLsbD_setWidth, BitVec.getLsbD_or, BitVec.getLsbD_shiftLeft, BitVec.getLsbD_append, hi]
  by_cases hn : i < n
  · simp [hn]
  · simp [hn, show i - n < w by omega, BitVec.getLsbD_of_ge l i (by omega)]

theorem bytes16_eq_or (hi lo : Byte) : hi ++ lo = hi.setWidth 16 <<< 8 ||| lo.setWidth 16 :=
  setWidth_append_eq_or hi lo 16

theorem bytes32_eq_or (b3 b2 b1 b0 : Byte) :
    b3 ++ b2 ++ b1 ++ b0 =
      b3.setWidth 32 <<< 24 ||| b2.setWidth 32 <<< 16 ||| b1.setWidth 32 <<< 8 ||| b0.setWidth 32 := by
  refine (BitVec.setWidth_eq (b3 ++ b2 ++ b1 ++ b0)).symm.trans ?_
  simp only [setWidth_append_eq_or, BitVec.shiftLeft_or_distrib, ← BitVec.shiftLeft_add]

theorem or_reverse {w : Nat} (x3 x2 x1 x0 : BitVec w) : x3 ||| x2 ||| x1 ||| x0 = x0 ||| x1 ||| x2 ||| x3 := by
  ac_rfl

/-- A read that begins where a sequence ends is a read of what is appended. -/
theorem memRead16_append_right (e : Endian) (a w : List Byte) : memRead16 e (a ++ w) a.length = memRead16 e w 0 := by
  have h0 : byteAt (a ++ w) a.length = byteAt w 0 := byteAt_append_right a w 0
  cases e <;> simp only [memRead16, h0, byteAt_append_right, Nat.zero_add]

theorem memRead32_append_right (e : Endian) (a w : List Byte) : memRead32 e (a ++ w) a.length = memRead32 e w 0 := by
  have h0 : byteAt (a ++ w) a.length = byteAt w 0 := byteAt_append_right a w 0
  cases e <;> simp only [memRead32, h0, byteAt_append_right, Nat.zero_add]

theorem memRead16_le (b0 b1 : Byte) (u : List Byte) : memRead16 .le (b0 :: b1 :: u) 0 = b1 ++ b0 := rfl

theorem memRead16_be (b0 b1 : Byte) (u : List Byte) : memRead16 .be (b0 :: b1 :: u) 0 = b0 ++ b1 := rfl

theorem memRead32_le (b0 b1 b2 b3 : Byte) (u : List Byte) :
    memRead32 .le (b0 :: b1 :: b2 :: b3 :: u) 0 = b3 ++ b2 ++ b1 ++ b0 := rfl

theorem memRead32_be (b0 b1 b2 b3 : Byte) (u : List Byte) :
    memRead32 .be (b0 :: b1 :: b2 :: b3 :: u) 0 = b0 ++ b1 ++ b2 ++ b3 := rfl

theorem extract_bytes16 (hi lo : Byte) :
    (hi ++ lo).extractLsb' 0 8 = lo ∧ (hi ++ lo).extractLsb' 8 8 = hi :=
  ⟨extract_append_low hi lo, extract_append_high hi lo⟩

theorem extract_bytes32 (b3 b2 b1 b0 : Byte) :
    (b3 ++ b2 ++ b1 ++ b0).extractLsb' 0 8 = b0 ∧ (b3 ++ b2 ++ b1 ++ b0).extractLsb' 8 8 = b1 ∧
      (b3 ++ b2 ++ b1 ++ b0).extractLsb' 16 8 = b2 ∧ (b3 ++ b2 ++ b1 ++ b0).extractLsb' 24 8 = b3 := by
  have above := extract_append_above (b3 ++ b2 ++ b1) b0
  refine ⟨extract_append_low _ b0, ?_, ?_, ?_⟩
  · exact (above 0 8).trans (extract_append_low (b3 ++ b2) b1)
  · exact (above 8 8).trans ((extract_append_above (b3 ++ b2) b1 0 8).trans (extract_append_low b3 b2))
  · exact (above 16 8).trans ((extract_append_above (b3 ++ b2) b1 8 8).trans (extract_append_high b3 b2))

/-- Two bytes read as a field are written back as the same bytes. -/
theorem wr16_memRead16 (e : Endian) (b0 b1 : Byte) : wr16 e (memRead16 e [b0, b1] 0) = [b0, b1] := by
  cases e with
  | le =>
    obtain ⟨h0, h1⟩ := extract_bytes16 b1 b0
    simp only [wr16, memRead16_le, h0, h1]
  | be =>
    obtain ⟨h1, h0⟩ := extract_bytes16 b0 b1
    simp only [wr16, memRead16_be, h0, h1]

/-- Four bytes read as a field are written back as the same bytes. -/
theorem wr32_memRead32 (e : Endian) (b0 b1 b2 b3 : Byte) :
    wr32 e (memRead32 e [b0, b1, b2, b3] 0) = [b0, b1, b2, b3] := by
  cases e with
  | le =>
    obtain ⟨h0, h1, h2, h3⟩ := extract_bytes32 b3 b2 b1 b0
    simp only [wr32, memRead32_le, h0, h1, h2, h3]
  | be =>
    obtain ⟨h3, h2, h1, h0⟩ := extract_bytes32 b0 b1 b2 b3
    simp only [wr32, memRead32_be, h0, h1, h2, h3]

/-- Settles O57: a read at any offset is a read of the field's own bytes, and a byte of a field is its own bits. -/
theorem fieldsAreReadInTheByteOrderOfEndian : Obligations.FieldsAreReadInTheByteOrderOfEndian := by
  unfold Obligations.FieldsAreReadInTheByteOrderOfEndian
  refine ⟨fun before after b0 b1 => ?read16, fun before after b0 b1 b2 b3 => ?read32, fun e v => ?write16,
    wr16_memRead16, fun e v => ?write32, wr32_memRead32⟩
  case read16 =>
    simp only [List.append_assoc, memRead16_append_right, List.cons_append, memRead16_le, memRead16_be, bytes16_eq_or,
      and_true]
    exact BitVec.or_comm ..
  case read32 =>
    simp only [List.append_assoc, memRead32_append_right, List.cons_append, memRead32_le, memRead32_be, bytes32_eq_or,
      and_true]
    exact or_reverse ..
  case write16 => exact ⟨wr16_length e v, by simpa using memRead16_wr16 e [] [] v⟩
  case write32 => exact ⟨wr32_length e v, by simpa using memRead32_wr32 e [] [] v⟩

end Sys2Proof.Machine
end

section
/-! PROOFS. The fields of a built frame (spec/00_scope.md R16, spec/30_encoding.md R60 to R65), whatever follows it,
and what the decoder makes of it. -/

namespace Sys2Proof.Machine

section Fields

variable (e : Endian) (id : U32) (type len : U16) (payload : List Byte) (ck : U16) (rest : List Byte)

@[simp] theorem frameBytes_length : (frameBytes e id type len payload ck).length = 12 + payload.length := by
  simp [frameBytes]
  omega

/-- The ten bytes before the payload of a built frame. -/
def frameHeader : List Byte := [0x44, 0x46] ++ wr32 e id ++ wr16 e type ++ wr16 e len

@[simp] theorem frameHeader_length : (frameHeader e id type len).length = 10 := by
  simp [frameHeader]

theorem frameBytes_eq : frameBytes e id type len payload ck = frameHeader e id type len ++ payload ++ wr16 e ck := rfl

theorem markerOk_frameBytes : MarkerOk (frameBytes e id type len payload ck ++ rest) :=
  ⟨fun _ => rfl, fun _ => rfl⟩

theorem idField_frameBytes : idField e (frameBytes e id type len payload ck ++ rest) = id := by
  have h := memRead32_wr32 e [0x44, 0x46] (wr16 e type ++ wr16 e len ++ payload ++ wr16 e ck ++ rest) id
  simpa [idField, frameBytes] using h

theorem typeField_frameBytes : typeField e (frameBytes e id type len payload ck ++ rest) = type := by
  have h := memRead16_wr16 e ([0x44, 0x46] ++ wr32 e id) (wr16 e len ++ payload ++ wr16 e ck ++ rest) type
  simpa [typeField, frameBytes] using h

theorem lengthField_frameBytes :
    lengthField e (frameBytes e id type len payload ck ++ rest) = len.toNat := by
  have h := memRead16_wr16 e ([0x44, 0x46] ++ wr32 e id ++ wr16 e type) (payload ++ wr16 e ck ++ rest) len
  have h' := congrArg BitVec.toNat h
  simpa [lengthField, frameBytes] using h'

theorem payloadField_frameBytes :
    payloadField (frameBytes e id type len payload ck ++ rest) payload.length = payload := by
  rw [payloadField, frameBytes_eq, List.append_assoc, List.append_assoc,
    List.drop_left' (frameHeader_length e id type len), List.take_left]

theorem checksumField_frameBytes :
    checksumField e (frameBytes e id type len payload ck ++ rest) payload.length = ck := by
  have h := memRead16_wr16 e (frameHeader e id type len ++ payload) rest ck
  simpa [checksumField, frameBytes_eq] using h

theorem coveredRegion_frameBytes :
    coveredRegion (frameBytes e id type len payload ck ++ rest) payload.length =
      frameHeader e id type len ++ payload := by
  rw [coveredRegion, frameBytes_eq, List.append_assoc]
  exact List.take_left' (by simp)

end Fields

section Decode

variable (p : Params) (id : U32) (type : U16) {payload : List Byte} (rest : List Byte)

/-- Phase 2 accepts the checksum that `compute` gives (R102, R127). -/
theorem decodeBody_frame :
    decodeBody p (frame p id type payload ++ rest) payload.length =
      decodeFields p (frame p id type payload ++ rest) payload.length := by
  have hlen : ¬(frame p id type payload ++ rest).length < 12 + payload.length := by
    simp [frame, frameL]
  have hck : cksumFn p.cksum (coveredRegion (frame p id type payload ++ rest) payload.length) =
      checksumField p.endian (frame p id type payload ++ rest) payload.length := by
    rw [frame, frameL, coveredRegion_frameBytes, checksumField_frameBytes]
    rfl
  rw [decodeBody, if_neg hlen, if_neg (not_not_intro hck)]

theorem lengthField_frame (h : payload.length ≤ 2048) :
    lengthField p.endian (frame p id type payload ++ rest) = payload.length := by
  rw [frame, frameL, lengthField_frameBytes, BitVec.toNat_ofNat, Nat.mod_eq_of_lt (by omega)]

/-- A built frame passes every check up to its class (R122 to R127). -/
theorem decodeFrame_frame (h : payload.length ≤ 2048) :
    decodeFrame p (frame p id type payload ++ rest) =
      decodeFields p (frame p id type payload ++ rest) payload.length := by
  have hm : MarkerOk (frame p id type payload ++ rest) := markerOk_frameBytes ..
  have hlen : ¬(frame p id type payload ++ rest).length < 10 := by
    simp [frame, frameL]
    omega
  rw [decodeFrame_of_markerOk hm, if_neg hlen, lengthField_frame p id type rest h, if_neg (by omega),
    decodeBody_frame]

/-- The class rule is asked about the very fields the frame was built from (R128). -/
theorem classify_frame :
    classify p.reg (typeField p.endian (frame p id type payload ++ rest)) payload.length
      (payloadField (frame p id type payload ++ rest) payload.length) =
        classify p.reg type payload.length payload := by
  rw [frame, frameL, typeField_frameBytes, payloadField_frameBytes]

/-- The message of a built frame is the record of the fields it was built from (R70). -/
theorem messageOf_frame (cls : FrameClass) (rc : Option Byte) :
    messageOf p (frame p id type payload ++ rest) payload.length cls rc =
      { id := id, type := type, ack := type.getLsbD 15, base := type.extractLsb' 0 15, cls := cls
        len := payload.length, payload := payload, rc := rc, consumed := 12 + payload.length } := by
  rw [messageOf, frame, frameL, idField_frameBytes, typeField_frameBytes, payloadField_frameBytes]
  rfl

end Decode

theorem decodeFields_of_bad {p : Params} {w : List Byte} {len : Nat}
    (h : classify p.reg (typeField p.endian w) len (payloadField w len) = .bad) :
    decodeFields p w len = .invalid .lengthMismatch := by
  simp [decodeFields, h]

theorem decodeFields_of_ok {p : Params} {w : List Byte} {len : Nat} {cls : FrameClass} {rc : Option Byte}
    (h : classify p.reg (typeField p.endian w) len (payloadField w len) = .ok cls rc) :
    decodeFields p w len = .complete (messageOf p w len cls rc) (12 + len) := by
  simp [decodeFields, h]

/-- Settles O38: a built frame passes the checks, and its class is that of the fields it was built from. -/
theorem frameDecodesToItsFields : Obligations.FrameDecodesToItsFields := by
  unfold Obligations.FrameDecodesToItsFields
  intro p id type payload rest hlen
  refine ⟨fun hbad => ?_, fun cls rc hok => ?_⟩
  · rw [decodeFrame_frame p id type rest hlen, decodeFields_of_bad]
    rwa [classify_frame]
  · rw [decodeFrame_frame p id type rest hlen, decodeFields_of_ok (cls := cls) (rc := rc), messageOf_frame]
    rwa [classify_frame]

end Sys2Proof.Machine
end

section
/-! PROOFS. The step and the port (spec/00_scope.md R10, R49): a step is what taking in the oldest presented thing
comes to. -/

namespace Sys2Proof.Machine

variable {s t : State} {item : Item} {rest : List Item} {i : Instr}

theorem fetch_of_pending_nil (h : s.pending = []) : s.fetch = .done s := by
  simp [State.fetch, h]

theorem fetch_of_pending_cons (h : s.pending = item :: rest) :
    s.fetch = State.receive { s with pending := rest } item := by
  simp [State.fetch, h]

theorem step_of_fetch_done (h : s.fetch = .done t) : step s = .next t := by
  simp [step, h]

theorem step_of_fetch_run (h : s.fetch = .run i t) : step s = exec i t := by
  simp [step, h]

/-- A thing that is taken in as an instruction is run (R10). -/
theorem step_of_receive_run (hp : s.pending = item :: rest)
    (hr : State.receive { s with pending := rest } item = .run i t) : step s = exec i t :=
  step_of_fetch_run ((fetch_of_pending_cons hp).trans hr)

/-- The first producer, and after it the owner, has its instruction run, and owns the block (R284). -/
theorem fromProducer_of_owner {q : Nat} (h : s.owner = none ∨ s.owner = some q) :
    s.fromProducer q i = .run i { s with owner := some q } := by
  obtain h | h := h
  · simp [State.fromProducer, h]
  · have hs : { s with owner := some q } = s := by rw [← h]
    simp [State.fromProducer, h, hs]

theorem receive_transaction (s : State) (q : Nat) (word : BitVec 10) :
    s.receive (.transaction q word) = s.fromProducer q (decodeCommand word) := rfl

theorem receive_marker_of_decode {b : Byte} (s : State) (q : Nat) (h : decodeMarker b = .ok i) :
    s.receive (.marker q b) = s.fromProducer q i := by
  simp [State.receive, h]

theorem receive_typeField_of_decode {type len : U16} {payload : List Byte}
    (h : decodeType s.cfg.reg type len payload = .ok i) : s.receive (.typeField type len payload) = .run i s := by
  simp [State.receive, h, State.decoded]

theorem receive_named_of_unencoded (s : State) (h : i.unencoded = true) : s.receive (.named i) = .run i s := by
  simp [State.receive, h]

/-- Settles O40, one kind of presented thing at a time. -/
theorem stepRunsTheDecodedInstruction : Obligations.StepRunsTheDecodedInstruction := by
  unfold Obligations.StepRunsTheDecodedInstruction
  intro s rest
  refine ⟨?transaction, ?marker, ?typeField, ?event, ?named, ?nothing⟩
  case transaction =>
    exact fun q word hp ho => step_of_receive_run hp (fromProducer_of_owner ho)
  case marker =>
    exact fun q b i hp ho hd =>
      step_of_receive_run hp ((receive_marker_of_decode _ q hd).trans (fromProducer_of_owner ho))
  case typeField =>
    exact fun type len payload i hp hd => step_of_receive_run hp (receive_typeField_of_decode hd)
  case event =>
    exact fun code hp => step_of_receive_run hp rfl
  case named =>
    exact fun i hp hu => step_of_receive_run hp (receive_named_of_unencoded _ hu)
  case nothing =>
    exact fun hp => step_of_fetch_done (fetch_of_pending_nil hp)

end Sys2Proof.Machine
end

section
/-! PROOFS. What an engine action emits and leaves of the window, and where a drain ends (spec/43_synchronizer.md
R186 to R197): in a ready state, with a window that begins with the marker if it is in ACC (R26). -/

namespace Sys2Proof.Machine

variable {s t : State} {a : Action}

theorem startsWithMarker_iff (w : List Byte) :
    startsWithMarker w = true ↔ 2 ≤ w.length ∧ byteAt w 0 = 0x44 ∧ byteAt w 1 = 0x46 := by
  match w with
  | [] => simp [startsWithMarker]
  | [a] => simp [startsWithMarker]
  | a :: b :: rest => simp [startsWithMarker, byteAt]

theorem markerOk_of_startsWithMarker {w : List Byte} (h : startsWithMarker w = true) : MarkerOk w := by
  obtain ⟨-, h0, h1⟩ := (startsWithMarker_iff w).1 h
  exact ⟨fun _ => h0, fun _ => h1⟩

/-- The marker stays in front when bytes follow. -/
theorem startsWithMarker_append {w : List Byte} (h : startsWithMarker w = true) (u : List Byte) :
    startsWithMarker (w ++ u) = true := by
  obtain ⟨hlen, h0, h1⟩ := (startsWithMarker_iff w).1 h
  rw [startsWithMarker_iff, byteAt_append_left (by omega), byteAt_append_left (by omega), List.length_append]
  exact ⟨by omega, h0, h1⟩

/-- Behind a right marker the decoder has two errors to report (R125, R127, R128). -/
theorem decodeFrame_invalid_of_markerOk {p : Params} {w : List Byte} {e : FrameError} (hm : MarkerOk w)
    (h : decodeFrame p w = .invalid e) : e = .lengthMismatch ∨ e = .checksumMismatch := by
  rw [decodeFrame_of_markerOk hm] at h
  split at h
  · cases h
  · split at h
    · cases h; exact .inl rfl
    · unfold decodeBody at h
      split at h
      · cases h
      · split at h
        · cases h; exact .inr rfl
        · unfold decodeFields at h
          split at h
          · cases h
          · cases h; exact .inl rfl

/-- A candidate under examination begins with the marker (R26, case (b)), ready or not. -/
def State.OnMarker (s : State) : Prop := s.st = .acc → startsWithMarker s.win = true

/-- R26 is readiness with the marker in front of a candidate. -/
theorem waiting_iff (s : State) : s.waiting = true ↔ s.inReady = true ∧ s.OnMarker := by
  unfold State.waiting State.inReady State.quiescent State.OnMarker
  cases s.st <;> simp [and_comm]

theorem memWrite_onMarker (b : Byte) (h : s.OnMarker) : (s.memWrite b).OnMarker :=
  fun hst => startsWithMarker_append (h hst) [b]

/-- LOCK has seen the marker (R194); the other actions leave ACC. -/
theorem perform_onMarker (ha : s.enabled = some a) : (s.perform a).OnMarker := by
  intro hst
  rcases enabled_cases ha with ⟨rfl, -⟩ | ⟨rfl, -, hw, h0, h1⟩ | ⟨m, k, rfl, -⟩ | ⟨e, rfl, -⟩
  case inr.inl => exact (startsWithMarker_iff s.win).2 ⟨seekWaits_false_two hw h0, h0, h1⟩
  all_goals simp [State.perform] at hst

/-- What REJECT reports of a candidate that begins with the marker (R197). -/
theorem reject_error_of_onMarker {e : FrameError} (ha : s.enabled = some (.reject e)) (h : s.OnMarker) :
    e = .lengthMismatch ∨ e = .checksumMismatch := by
  obtain ⟨hst, hd⟩ : s.st = .acc ∧ decodeFrame s.cfg s.win = .invalid e := by simpa using enabled_cases ha
  exact decodeFrame_invalid_of_markerOk (markerOk_of_startsWithMarker (h hst)) hd

/-- An action appends the event it emits, if it emits one, at the position of the window's first byte (R201). -/
theorem perform_out (s : State) (a : Action) :
    (s.perform a).out = s.out ++ (a.event s.hunt).toList.map fun e => ⟨e, s.head⟩ := by
  cases a with
  | skip => cases h : s.hunt <;> simp [State.perform, Action.event, skipReport, h]
  | lock => simp [State.perform, Action.event]
  | accept m k => simp [State.perform, Action.event]
  | reject e => simp [State.perform, Action.event]

/-- The only action events are Decoded and the three errors that are reported (R71, R167). -/
theorem action_event_not_reserved {hunt : Bool} {e : Event} (ha : s.enabled = some a) (h : s.OnMarker)
    (he : a.event hunt = some e) : e.reserved = false := by
  cases a with
  | skip =>
    cases hunt with
    | true => cases he
    | false => cases he; rfl
  | lock => cases he
  | accept m k => cases he; rfl
  | reject x =>
    cases he
    obtain rfl | rfl := reject_error_of_onMarker ha h <;> rfl

/-- No action adds a byte to the window (R186). -/
theorem perform_win_length_le (s : State) (a : Action) : (s.perform a).win.length ≤ s.win.length := by
  cases a <;> simp [State.perform]

theorem drainUpTo_inReady : ∀ (n : Nat) (s : State), s.mu ≤ n → (s.drainUpTo n).inReady = true
  | 0, s, hn => by
    refine (enabled_eq_none_iff s).1 (Option.eq_none_iff_forall_ne_some.2 fun a ha => ?_)
    have := perform_mu_lt ha
    omega
  | n + 1, s, hn => by
    unfold State.drainUpTo
    split
    · exact (enabled_eq_none_iff s).1 ‹_›
    · have := perform_mu_lt ‹s.enabled = some _›
      exact drainUpTo_inReady n _ (by omega)

/-- The drain ends with no action enabled: `mu` actions are enough (R188, R189). -/
theorem drain_inReady (s : State) : s.drain.inReady = true := drainUpTo_inReady _ s le_rfl

end Sys2Proof.Machine
end

section
/-! PROOFS. What a row can do to the state, and what a step can do (spec/00_scope.md R10, spec/43_synchronizer.md
R181): the two inversions that the statements about every step are derived from. -/

namespace Sys2Proof.Machine

variable {s t : State} {i : Instr}

/-- The rows a producer presents: the host commands and the marker bytes (R74, R284). -/
def OfProducer (i : Instr) : Prop := i.format = .cmd10 ∨ i.format = .byte

/-- What running a row can come to, where it answers a next state. -/
inductive RowEffect (i : Instr) (s : State) : State → Prop
  /-- NOP (R182). -/
  | same : RowEffect i s s
  /-- A hazard or the reserved op (R283, R185). -/
  | mark (f : Fault) : RowEffect i s (s.mark f)
  /-- A pure function or a type class (log entry 12). -/
  | ret (r : FnResult) : RowEffect i s (s.ret r)
  /-- RESET (R184). -/
  | reset : RowEffect i s s.resetSync
  /-- FEED, which is a producer's and runs in a ready state (R183). -/
  | feed (b : Byte) (hi : OfProducer i) (hs : s.inReady = true) : RowEffect i s (s.memWrite b).drain
  /-- An engine action, performed where it is enabled (R192). -/
  | act (a : Action) (ha : s.enabled = some a) : RowEffect i s (s.perform a)

theorem rowEffect_of_feedByte (b : Byte) (hi : OfProducer i) : RowEffect i s (s.feedByte b) := by
  unfold State.feedByte
  cases hs : s.inReady with
  | true => rw [whenReady_of_inReady hs]; exact .feed b hi hs
  | false => rw [whenReady_of_busy hs]; exact .mark _

theorem rowEffect_of_whenReady (h : RowEffect i s t) : RowEffect i s (s.whenReady t) := by
  cases hs : s.inReady with
  | true => rwa [whenReady_of_inReady hs]
  | false => rw [whenReady_of_busy hs]; exact .mark _

theorem rowEffect_of_retClass {len : U16} {payload : List Byte} {r : ClassResult}
    (h : s.retClass len payload r = .next t) : RowEffect i s t := by
  unfold State.retClass at h
  split at h <;> cases h
  exact .ret _

theorem rowEffect_of_emitting {code : BitVec 3} (h : s.emitting code = .next t) : RowEffect i s t := by
  unfold State.emitting at h
  split at h
  · cases h
  · split at h <;> cases h
    exact .act _ ‹_›

/-- The inversion of `exec`: a row that answers a next state has one of these effects. -/
theorem exec_effect (h : exec i s = .next t) : RowEffect i s t := by
  cases i with
  | nop _ => cases h; exact rowEffect_of_whenReady .same
  | feed b => cases h; exact rowEffect_of_feedByte b (.inl rfl)
  | reset _ => cases h; exact .reset
  | rsvd _ => cases h; exact rowEffect_of_whenReady (.mark _)
  | ack _ _ _ => exact rowEffect_of_retClass h
  | cmdHi _ _ => exact rowEffect_of_retClass h
  | cmd _ _ _ =>
    rw [exec_cmd, execCmd] at h
    split at h
    · exact rowEffect_of_retClass h
    · cases h
  | unknown _ _ _ =>
    rw [exec_unknown, execUnknown] at h
    split at h
    · cases h
    · exact rowEffect_of_retClass h
  | markerD => cases h; exact rowEffect_of_feedByte _ (.inr rfl)
  | markerF => cases h; exact rowEffect_of_feedByte _ (.inr rfl)
  | evDecoded => exact rowEffect_of_emitting h
  | evBadMarker => exact rowEffect_of_emitting h
  | evChecksumMismatch => exact rowEffect_of_emitting h
  | evLengthMismatch => exact rowEffect_of_emitting h
  | evUnknownType => cases h
  | evRsvd _ => cases h
  | skip => rw [exec_skip, execSkip] at h; split at h <;> cases h; exact .act .skip ‹_›
  | lock => rw [exec_lock, execLock] at h; split at h <;> cases h; exact .act .lock ‹_›
  | accept => rw [exec_accept, execAccept] at h; split at h <;> cases h; exact .act (.accept _ _) ‹_›
  | reject => rw [exec_reject, execReject] at h; split at h <;> cases h; exact .act (.reject _) ‹_›
  | ckCompute _ _ _ _ _ _ => rw [exec_ckCompute, execCkCompute] at h; split at h <;> cases h; exact .ret _
  | ckVerify _ => cases h; exact .ret _
  | decode _ => cases h; exact .ret _
  | classify _ _ _ => exact rowEffect_of_retClass h

theorem decodeType_not_ofProducer {reg : Registry} {type len : U16} {payload : List Byte}
    (h : decodeType reg type len payload = .ok i) : ¬OfProducer i := by
  unfold decodeType at h
  dsimp only at h
  split_ifs at h <;> cases h <;> simp [OfProducer, Instr.format]

theorem decodeEvent_not_ofProducer (code : BitVec 3) : ¬OfProducer (decodeEvent code) := by
  unfold decodeEvent OfProducer
  revert code
  decide

theorem unencoded_not_ofProducer (h : i.unencoded = true) : ¬OfProducer i := by
  simp only [Instr.unencoded, Bool.or_eq_true, decide_eq_true_eq] at h
  obtain h | h := h <;> simp [OfProducer, h]

/-- What a step can come to, where it answers a next state. `rest` is what is still presented after it. -/
inductive StepEffect (s : State) : State → Prop
  /-- Nothing is presented (R258). -/
  | idle : StepEffect s s
  /-- A second producer (R284). -/
  | mark (f : Fault) (rest : List Item) : StepEffect s (State.mark { s with pending := rest } f)
  /-- A configuration (R274, R286). -/
  | configure (p : Params) (rest : List Item) : StepEffect s (State.configure { s with pending := rest } p)
  /-- The consumer's take (R285). -/
  | take (rest : List Item) : StepEffect s (State.takeEvent { s with pending := rest })
  /-- A row that no producer presents. -/
  | row {i : Instr} {t : State} (rest : List Item) (hi : ¬OfProducer i)
      (he : RowEffect i { s with pending := rest } t) : StepEffect s t
  /-- The owner's transaction or marker byte, or the first one, whose producer becomes the owner (R284). -/
  | owned {i : Instr} {t : State} (rest : List Item) (q : Nat) (ho : s.owner = none ∨ s.owner = some q)
      (he : RowEffect i { s with pending := rest, owner := some q } t) : StepEffect s t

/-- What the rest of the step does with what was taken in. -/
def Fetched.outcome : Fetched → Host.Outcome State Fault Refusal
  | .done t => .next t
  | .run i t => exec i t
  | .stop r => .refused r

theorem step_eq_outcome (s : State) : step s = s.fetch.outcome := rfl

theorem stepEffect_of_run {rest : List Item} (hi : ¬OfProducer i)
    (h : (Fetched.run i { s with pending := rest }).outcome = .next t) : StepEffect s t :=
  .row rest hi (exec_effect h)

/-- A second producer's instruction is not run (R284). -/
theorem fromProducer_of_other {first q : Nat} (ho : s.owner = some first) (hq : first ≠ q) :
    s.fromProducer q i = .done (s.mark .concurrentFeed) := by
  simp [State.fromProducer, ho, hq]

theorem stepEffect_of_fromProducer {rest : List Item} {q : Nat}
    (h : (State.fromProducer { s with pending := rest } q i).outcome = .next t) : StepEffect s t := by
  by_cases ho : s.owner = none ∨ s.owner = some q
  · rw [fromProducer_of_owner (s := { s with pending := rest }) ho] at h
    exact .owned rest q ho (exec_effect h)
  · obtain ⟨hnone, hq⟩ := not_or.1 ho
    obtain ⟨first, hfirst⟩ := Option.ne_none_iff_exists'.1 hnone
    have hne : first ≠ q := by rintro rfl; exact hq hfirst
    rw [fromProducer_of_other (s := { s with pending := rest }) hfirst hne] at h
    cases h
    exact .mark _ rest

/-- The inversion of `step`: a step that answers a next state has one of these effects. -/
theorem step_effect (h : step s = .next t) : StepEffect s t := by
  rw [step_eq_outcome] at h
  match hp : s.pending with
  | [] => rw [fetch_of_pending_nil hp] at h; cases h; exact .idle
  | item :: rest =>
    rw [fetch_of_pending_cons hp] at h
    cases item with
    | transaction q word => exact stepEffect_of_fromProducer h
    | marker q b =>
      cases hd : decodeMarker b with
      | ok i => rw [receive_marker_of_decode _ q hd] at h; exact stepEffect_of_fromProducer h
      | error e => simp [State.receive, hd, Fetched.outcome] at h
    | typeField type len payload =>
      cases hd : decodeType s.cfg.reg type len payload with
      | ok i =>
        rw [receive_typeField_of_decode (s := { s with pending := rest }) hd] at h
        exact stepEffect_of_run (decodeType_not_ofProducer hd) h
      | error e => simp [State.receive, hd, State.decoded, Fetched.outcome] at h
    | event code => exact stepEffect_of_run (decodeEvent_not_ofProducer code) h
    | named i =>
      by_cases hu : i.unencoded = true
      · rw [receive_named_of_unencoded _ hu] at h
        exact stepEffect_of_run (unencoded_not_ofProducer hu) h
      · simp [State.receive, hu, Fetched.outcome] at h
    | configure p => cases h; exact .configure p rest
    | take => cases h; exact .take rest

/-- What a presented configuration comes to: it is put in force, or compared with the one in force (R274, R286). -/
theorem configure_cases (s : State) (p : Params) :
    (s.owner = none ∧ s.configure p = { s with cfg := p }) ∨
      (s.owner ≠ none ∧ (s.configure p = s ∨ s.configure p = s.mark .configChanged)) := by
  unfold State.configure
  split
  · exact .inl ⟨‹_›, rfl⟩
  · refine .inr ⟨by simp_all, ?_⟩
    split
    · exact .inl rfl
    · exact .inr rfl

end Sys2Proof.Machine
end

section
/-! PROOFS. The quiescent-state invariant (spec/10_state.md R26): each operation on the state keeps it, so every
step does; and the bound of the window (R23). -/

namespace Sys2Proof.Machine

variable {s t : State} {i : Instr}

theorem inv_pending (h : s.Inv) (rest : List Item) : State.Inv { s with pending := rest } :=
  ⟨h.waiting, h.fresh, h.taken, h.codes⟩

theorem inv_owner (h : s.Inv) (q : Nat) : State.Inv { s with owner := some q } :=
  ⟨h.waiting, fun ho => by simp at ho, h.taken, h.codes⟩

theorem inv_mark (h : s.Inv) (f : Fault) : (s.mark f).Inv := ⟨h.waiting, h.fresh, h.taken, h.codes⟩

theorem inv_ret (h : s.Inv) (r : FnResult) : (s.ret r).Inv := ⟨h.waiting, h.fresh, h.taken, h.codes⟩

theorem inv_resetSync (h : s.Inv) : s.resetSync.Inv := ⟨rfl, fun _ => ⟨rfl, rfl⟩, h.taken, h.codes⟩

theorem inv_takeEvent (h : s.Inv) : s.takeEvent.Inv :=
  ⟨h.waiting, h.fresh, Nat.min_le_right _ _, h.codes⟩

/-- A configuration put in force finds an empty window, which waits under every configuration (R274). -/
theorem inv_configure (h : s.Inv) (p : Params) : (s.configure p).Inv := by
  obtain ⟨ho, hc⟩ | ⟨-, hc | hc⟩ := configure_cases s p
  · obtain ⟨hst, hwin⟩ := h.fresh ho
    rw [hc]
    exact ⟨by simp [State.waiting, hst, hwin, seekWaits], h.fresh, h.taken, h.codes⟩
  · rwa [hc]
  · rw [hc]; exact inv_mark h _

/-- What the invariant says of the events: none beyond them is taken, and none has a reserved code. -/
def State.EventsOk (s : State) : Prop := s.taken ≤ s.out.length ∧ ∀ e ∈ s.out, e.event.reserved = false

theorem perform_eventsOk {a : Action} (ha : s.enabled = some a) (hm : s.OnMarker) (h : s.EventsOk) :
    (s.perform a).EventsOk := by
  obtain ⟨htaken, hcodes⟩ := h
  obtain ⟨-, -, hframe, -, -, -⟩ := perform_frame s a
  rw [State.EventsOk, hframe, perform_out]
  refine ⟨by rw [List.length_append]; omega, fun e he => ?_⟩
  rcases List.mem_append.1 he with he | he
  · exact hcodes e he
  · obtain ⟨x, hx, rfl⟩ := List.mem_map.1 he
    exact action_event_not_reserved ha hm (Option.mem_toList.1 hx)

theorem drain_owner (s : State) : s.drain.owner = s.owner := by
  refine drain_keeps (P := fun t => t.owner = s.owner) (fun u a _ hu => ?_) rfl
  obtain ⟨-, -, -, -, hframe, -⟩ := perform_frame u a
  rw [hframe, hu]

/-- FEED by a producer keeps the invariant: the drain ends ready, on a marker if in ACC (R183, R188). -/
theorem inv_memWrite_drain (h : s.Inv) (ho : s.owner ≠ none) (b : Byte) : (s.memWrite b).drain.Inv := by
  obtain ⟨-, hm⟩ := (waiting_iff s).1 h.waiting
  obtain ⟨hmarker, htaken, hcodes⟩ := drain_keeps (P := fun t => t.OnMarker ∧ t.EventsOk)
    (fun _ _ ha hu => ⟨perform_onMarker ha, perform_eventsOk ha hu.1 hu.2⟩) (s := s.memWrite b)
    ⟨memWrite_onMarker b hm, h.taken, h.codes⟩
  exact ⟨(waiting_iff _).2 ⟨drain_inReady _, hmarker⟩,
    fun hn => absurd ((drain_owner (s.memWrite b)).symm.trans hn) ho, htaken, hcodes⟩

/-- A row keeps the invariant; one that takes a byte needs an owner of the block. No engine action is enabled in
a waiting state (R187, R192). -/
theorem inv_of_rowEffect (he : RowEffect i s t) (h : s.Inv) (ho : OfProducer i → s.owner ≠ none) : t.Inv := by
  cases he with
  | same => exact h
  | mark f => exact inv_mark h f
  | ret r => exact inv_ret h r
  | reset => exact inv_resetSync h
  | feed b hi _ => exact inv_memWrite_drain h (ho hi) b
  | act a ha =>
    have hn := (enabled_eq_none_iff s).2 ((waiting_iff s).1 h.waiting).1
    rw [hn] at ha
    cases ha

/-- Settles O48: the empty window waits in SEEK, and nothing has been fed, emitted or taken. -/
theorem constructionStateMeetsTheInvariant : Obligations.ConstructionStateMeetsTheInvariant where
  waiting := rfl
  fresh _ := ⟨rfl, rfl⟩
  taken := Nat.le_refl 0
  codes _ he := absurd he List.not_mem_nil

/-- Settles O49, one effect of a step at a time. -/
theorem everyStepKeepsTheInvariant : Obligations.EveryStepKeepsTheInvariant := by
  unfold Obligations.EveryStepKeepsTheInvariant
  intro s t h hstep
  cases step_effect hstep with
  | idle => exact h
  | mark f rest => exact inv_mark (inv_pending h rest) f
  | configure p rest => exact inv_configure (inv_pending h rest) p
  | take rest => exact inv_takeEvent (inv_pending h rest)
  | row rest hi he => exact inv_of_rowEffect he (inv_pending h rest) (absurd · hi)
  | owned rest q _ he =>
    exact inv_of_rowEffect he (inv_owner (inv_pending h rest) q) fun _ => Option.some_ne_none q

/-- A ready block holds one byte in SEEK, or an incomplete candidate in ACC, which is short of `12 + 2048` bytes
(R23, R129). -/
theorem win_length_le_of_inReady (h : s.inReady = true) : s.win.length ≤ 2059 := by
  unfold State.inReady State.quiescent at h
  cases hst : s.st <;> rw [hst] at h
  case seek =>
    simp only [seekWaits, Bool.or_eq_true, List.isEmpty_iff, decide_eq_true_eq] at h
    obtain hnil | ⟨hone, -⟩ := h
    · simp [hnil]
    · omega
  case acc =>
    obtain ⟨-, hlen⟩ := decodeFrame_incomplete (of_decide_eq_true h)
    omega

theorem actionsLead_win_length_le : ∀ (n : Nat) (s : State), ActionsLead n s t → t.win.length ≤ s.win.length
  | 0, _, rfl => le_rfl
  | n + 1, s, ⟨a, _, hlead⟩ =>
    (actionsLead_win_length_le n _ hlead).trans (perform_win_length_le s a)

/-- Settles O47: a ready window leaves one byte of room, and no action adds a byte. -/
theorem readyWindowHasRoom : Obligations.ReadyWindowHasRoom := by
  unfold Obligations.ReadyWindowHasRoom
  intro s hs
  have hwin := win_length_le_of_inReady hs
  refine ⟨hwin, fun b n t hlead => ?_⟩
  have hle := actionsLead_win_length_le n _ hlead
  simp only [List.length_append, List.length_singleton] at hle
  omega

end Sys2Proof.Machine
end

section
/-! PROOFS. Reset and the observation of a run (spec/10_state.md R28, R34; spec/43_synchronizer.md R205). -/

namespace Sys2Proof.Machine

/-- Settles O1, by the definition of the construction state. -/
theorem constructionStateAsTheSpecGives : Obligations.ConstructionStateAsTheSpecGives := by
  refine ⟨rfl, rfl, rfl, rfl, fun f => ?_, rfl⟩
  cases f <;> rfl

/-- The premise "no fault" (R205), reason by reason. -/
theorem unmarked_iff (s : State) : s.unmarked = true ↔ ∀ f, s.faults.has f = false := by
  simp only [State.unmarked, Bool.not_eq_true', Bool.or_eq_false_iff]
  constructor
  · rintro ⟨⟨⟨h1, h2⟩, h3⟩, h4⟩ f
    cases f <;> assumption
  · exact fun h => ⟨⟨⟨h .feedWhileBusy, h .concurrentFeed⟩, h .reservedOp⟩, h .configChanged⟩

/-- Settles O2: what is observed turns on `unmarked`, which is that no reason stands. -/
theorem observationOfARun : Obligations.ObservationOfARun := by
  unfold Obligations.ObservationOfARun
  intro s
  refine ⟨fun f hf => if_neg fun hu => ?_, fun h => if_pos ((unmarked_iff s).2 h)⟩
  rw [(unmarked_iff s).1 hu f] at hf
  cases hf

end Sys2Proof.Machine
end

section
/-! PROOFS. What outlives every step: the reasons of the fault mark (spec/10_state.md R28), the events
(spec/43_synchronizer.md R190), and the owner and the configuration once there is an owner
(spec/70_reset_and_hazards.md R286). -/

namespace Sys2Proof.Machine

variable {s t u : State} {i : Instr}

/-- `t` has every reason and every event of `s`, and the owner and configuration of `s` if it has an owner. -/
structure Outlives (s t : State) : Prop where
  faults : ∀ f, s.faults.has f = true → t.faults.has f = true
  out : s.out <+: t.out
  config : s.owner ≠ none → t.owner = s.owner ∧ t.cfg = s.cfg

theorem Outlives.refl (s : State) : Outlives s s :=
  ⟨fun _ h => h, List.prefix_rfl, fun _ => ⟨rfl, rfl⟩⟩

theorem Outlives.trans (h : Outlives s t) (h' : Outlives t u) : Outlives s u where
  faults f hf := h'.faults f (h.faults f hf)
  out := h.out.trans h'.out
  config ho := by
    obtain ⟨howner, hcfg⟩ := h.config ho
    obtain ⟨howner', hcfg'⟩ := h'.config (howner ▸ ho)
    exact ⟨howner'.trans howner, hcfg'.trans hcfg⟩

/-- A step that writes none of these fields. -/
theorem Outlives.of_frame (hfaults : t.faults = s.faults) (hout : t.out = s.out) (howner : t.owner = s.owner)
    (hcfg : t.cfg = s.cfg) : Outlives s t :=
  ⟨fun _ hf => by rwa [hfaults], by rw [hout], fun _ => ⟨howner, hcfg⟩⟩

theorem outlives_pending (s : State) (rest : List Item) : Outlives s { s with pending := rest } :=
  .of_frame rfl rfl rfl rfl

theorem outlives_memWrite (s : State) (b : Byte) : Outlives s (s.memWrite b) := .of_frame rfl rfl rfl rfl

theorem has_add (m : FaultMarks) (g f : Fault) : (m.add g).has f = (m.has f || decide (f = g)) := by
  cases g <;> cases f <;> simp [FaultMarks.add, FaultMarks.has]

theorem outlives_mark (s : State) (f : Fault) : Outlives s (s.mark f) :=
  ⟨fun g hg => by simp [has_add, hg], List.prefix_rfl, fun _ => ⟨rfl, rfl⟩⟩

theorem outlives_perform (s : State) (a : Action) : Outlives s (s.perform a) := by
  obtain ⟨hfaults, hcfg, -, -, howner, -⟩ := perform_frame s a
  have hout := perform_out s a
  exact ⟨fun _ hf => by rwa [hfaults], ⟨_, hout.symm⟩, fun _ => ⟨howner, hcfg⟩⟩

theorem outlives_drain (s : State) : Outlives s s.drain :=
  drain_keeps (fun u a _ hu => hu.trans (outlives_perform u a)) (.refl s)

theorem outlives_configure (s : State) (p : Params) : Outlives s (s.configure p) := by
  obtain ⟨ho, hc⟩ | ⟨-, hc | hc⟩ := configure_cases s p
  · rw [hc]; exact ⟨fun _ h => h, List.prefix_rfl, fun hn => absurd ho hn⟩
  · rw [hc]; exact .refl s
  · rw [hc]; exact outlives_mark s _

theorem outlives_of_rowEffect (he : RowEffect i s t) : Outlives s t := by
  cases he with
  | same => exact .refl s
  | mark f => exact outlives_mark s f
  | ret r => exact .of_frame rfl rfl rfl rfl
  | reset => exact .of_frame rfl rfl rfl rfl
  | feed b _ _ => exact (outlives_memWrite s b).trans (outlives_drain _)
  | act a _ => exact outlives_perform s a

/-- Settles O51, one effect of a step at a time. -/
theorem marksEventsAndConfigurationOutliveEveryStep : Obligations.MarksEventsAndConfigurationOutliveEveryStep := by
  unfold Obligations.MarksEventsAndConfigurationOutliveEveryStep
  intro s t hstep
  suffices h : Outlives s t from ⟨h.faults, h.out, h.config⟩
  cases step_effect hstep with
  | idle => exact .refl s
  | mark f rest => exact (outlives_pending s rest).trans (outlives_mark _ f)
  | configure p rest => exact (outlives_pending s rest).trans (outlives_configure _ p)
  | take rest => exact .of_frame rfl rfl rfl rfl
  | row rest _ he => exact (outlives_pending s rest).trans (outlives_of_rowEffect he)
  | owned rest q ho he =>
    have howned : Outlives s { s with pending := rest, owner := some q } :=
      ⟨fun _ h => h, List.prefix_rfl, fun hn => ⟨(ho.resolve_left hn).symm, rfl⟩⟩
    exact howned.trans (outlives_of_rowEffect he)

end Sys2Proof.Machine
end

section
/-! PROOFS. The hunt run (spec/10_state.md R24, spec/43_synchronizer.md R193, R242): from `hunt` = 1, no BadMarker is
emitted before a Decoded, and `hunt` stays 1 until then. -/

namespace Sys2Proof.Machine

variable {s t : State} {evs : List Emission}

/-- A frame decoded among these events. -/
def HasDecoded (evs : List Emission) : Prop := ∃ d ∈ evs, ∃ m, d.event = .decoded m

theorem HasDecoded.append (h : HasDecoded evs) (more : List Emission) : HasDecoded (evs ++ more) := by
  obtain ⟨d, hd, hm⟩ := h
  exact ⟨d, List.mem_append_left _ hd, hm⟩

/-- A Decoded precedes every BadMarker among these events. -/
def BadMarkerAfterDecoded (evs : List Emission) : Prop :=
  ∀ before x after, evs = before ++ x :: after → x.event = .error .badMarker → HasDecoded before

theorem BadMarkerAfterDecoded.append (h : BadMarkerAfterDecoded evs) {y : Emission}
    (hy : y.event = .error .badMarker → HasDecoded evs) : BadMarkerAfterDecoded (evs ++ [y]) := by
  intro before x after heq hx
  obtain rfl | ⟨init, last, rfl⟩ := after.eq_nil_or_concat
  · obtain ⟨rfl, hyx⟩ := List.append_inj' heq rfl
    cases hyx
    exact hy hx
  · rw [List.concat_eq_append, ← List.cons_append, ← List.append_assoc] at heq
    exact h before x init (List.append_inj' heq rfl).1 hx

/-- Where a hunt run that began in `s` stands, `evs` having been emitted since. -/
structure HuntRun (s t : State) (evs : List Emission) : Prop where
  out : t.out = s.out ++ evs
  hunt : t.hunt = true ∨ HasDecoded evs
  reports : BadMarkerAfterDecoded evs
  onMarker : t.OnMarker

theorem huntRun_start (hw : s.waiting = true) (hh : s.hunt = true) : HuntRun s s [] where
  out := (List.append_nil _).symm
  hunt := .inl hh
  reports before x after heq := by simp at heq
  onMarker := ((waiting_iff s).1 hw).2

/-- An action that emits nothing: a SKIP in a hunt run, or a LOCK (R193, R194). -/
theorem HuntRun.perform_silent {a : Action} (h : HuntRun s t evs) (ha : t.enabled = some a)
    (he : a.event t.hunt = none) (hh : t.hunt = true → (t.perform a).hunt = true) :
    HuntRun s (t.perform a) evs where
  out := by simp [perform_out, he, h.out]
  hunt := h.hunt.imp_left hh
  reports := h.reports
  onMarker := perform_onMarker ha

/-- An action that emits an event: a BadMarker only once a frame has decoded, and `hunt` is 1 after it or the event
is a Decoded (R193, R196, R197). -/
theorem HuntRun.perform_emits {a : Action} {e : Event} (h : HuntRun s t evs) (ha : t.enabled = some a)
    (he : a.event t.hunt = some e) (hbad : e = .error .badMarker → HasDecoded evs)
    (hh : (t.perform a).hunt = true ∨ ∃ m, e = .decoded m) :
    HuntRun s (t.perform a) (evs ++ [⟨e, t.head⟩]) where
  out := by simp [perform_out, he, h.out]
  hunt := hh.imp_right fun ⟨m, hm⟩ => ⟨⟨e, t.head⟩, by simp, m, hm⟩
  reports := h.reports.append hbad
  onMarker := perform_onMarker ha

/-- Every engine action carries the hunt run on. A SKIP reports only where `hunt` is 0, so after a Decoded; a REJECT
never reports a BadMarker, its candidate beginning with the marker. -/
theorem HuntRun.perform {a : Action} (ha : t.enabled = some a) (h : ∃ evs, HuntRun s t evs) :
    ∃ evs, HuntRun s (t.perform a) evs := by
  obtain ⟨evs, h⟩ := h
  cases a with
  | skip =>
    cases hh : t.hunt with
    | true => exact ⟨_, h.perform_silent ha (by simp [Action.event, skipReport, hh]) fun _ => t.skip_hunt⟩
    | false =>
      have hdec : HasDecoded evs := h.hunt.resolve_left (by simp [hh])
      exact ⟨_, h.perform_emits ha (e := .error .badMarker) (by simp [Action.event, skipReport, hh])
        (fun _ => hdec) (.inl t.skip_hunt)⟩
  | lock => exact ⟨_, h.perform_silent ha rfl id⟩
  | accept m k => exact ⟨_, h.perform_emits ha rfl (fun hb => by cases hb) (.inr ⟨m, rfl⟩)⟩
  | reject e =>
    refine ⟨_, h.perform_emits ha rfl (fun hb => ?_) (.inl (t.reject_hunt e))⟩
    cases hb
    simpa using reject_error_of_onMarker ha h.onMarker

theorem HuntRun.feedByte (b : Byte) (h : ∃ evs, HuntRun s t evs) : ∃ evs, HuntRun s (t.feedByte b) evs := by
  obtain ⟨evs, h⟩ := h
  unfold State.feedByte
  cases hs : t.inReady with
  | true =>
    rw [whenReady_of_inReady hs]
    exact drain_keeps (P := fun u => ∃ evs, HuntRun s u evs) (fun _ _ => HuntRun.perform)
      ⟨evs, h.out, h.hunt, h.reports, memWrite_onMarker b h.onMarker⟩
  | false =>
    rw [whenReady_of_busy hs]
    exact ⟨evs, h.out, h.hunt, h.reports, h.onMarker⟩

theorem HuntRun.feedAll {u : State} :
    ∀ (bs : List Byte) (t : State), (∃ evs, HuntRun s t evs) → feedAll bs t = .next u → ∃ evs, HuntRun s u evs
  | [], _, h, hu => by cases hu; exact h
  | b :: bs, t, h, hu => HuntRun.feedAll bs (t.feedByte b) (HuntRun.feedByte b h) hu

/-- Settles O52, by induction on the bytes fed and, in each FEED, on the actions of its drain. -/
theorem oneBadMarkerPerHuntRun : Obligations.OneBadMarkerPerHuntRun := by
  unfold Obligations.OneBadMarkerPerHuntRun
  intro bs s t evs hw hh hfeed hout
  obtain ⟨evs', h⟩ := HuntRun.feedAll bs s ⟨[], huntRun_start hw hh⟩ hfeed
  obtain rfl : evs = evs' := List.append_cancel_left (hout.symm.trans h.out)
  exact ⟨fun hnone => h.hunt.resolve_right fun ⟨d, hd, m, hm⟩ => hnone d hd m hm, h.reports⟩

end Sys2Proof.Machine
end

section
/-! PROOFS. Decoding and encoding (spec/30_encoding.md R62, R68 to R74, R78), format by format: a word decodes to a
row exactly when it encodes that row, with operands the row has, and the registry selects it. -/

namespace Sys2Proof.Machine

variable {reg : Registry} {i : Instr}

/-- The word `w` is the encoding of the row `i`, which is well formed and which the registry selects. -/
structure EncodesRow (reg : Registry) (w : TableWord) (i : Instr) : Prop where
  encoded : encode i = some w
  wf : i.wf = true
  selected : i.selected reg = true

/-! The host command words -/

/-- The op alone decides the row of a command word, and the data is its operand (R73, R74). -/
theorem decodeCommand_append (op : BitVec 2) (data : Byte) :
    decodeCommand (op ++ data) =
      if op = 0 then .nop data else if op = 1 then .feed data else if op = 2 then .reset data else .rsvd data := by
  simp only [decodeCommand, extract_append_high op data, extract_append_low op data]

theorem encodesRow_decodeCommand (reg : Registry) (word : BitVec 10) :
    EncodesRow reg (.cmd word) (decodeCommand word) := by
  obtain ⟨op, data, rfl⟩ : ∃ (op : BitVec 2) (data : Byte), word = op ++ data := ⟨_, _, (command_split word).symm⟩
  rw [decodeCommand_append]
  obtain rfl | rfl | rfl | rfl : op = 0 ∨ op = 1 ∨ op = 2 ∨ op = 3 := by revert op; decide
  all_goals exact ⟨rfl, rfl, rfl⟩

/-! The type fields -/

theorem ackBit_append (ack : BitVec 1) (base : BitVec 15) : ackBit (ack ++ base) = ack.getLsbD 0 :=
  getLsbD_append_high ack base 0

theorem baseCode_append (ack : BitVec 1) (base : BitVec 15) : baseCode (ack ++ base) = base :=
  extract_append_low ack base

/-- With the ACK bit set the registry is not asked (R69, R161). -/
theorem decodeType_ack (reg : Registry) (base : BitVec 15) (len : U16) (payload : List Byte) :
    decodeType reg (1#1 ++ base) len payload =
      if classOperandsOk len payload then .ok (.ack base len payload) else .error .classOperands := by
  have ha : (1#1 ++ base).getLsbD 15 = true := ackBit_append 1 base
  have hb : (1#1 ++ base).extractLsb' 0 15 = base := baseCode_append 1 base
  simp only [decodeType, ha, hb, if_true]

/-- With the ACK bit clear the base code and the registry decide (R69, R162, R163). -/
theorem decodeType_base (reg : Registry) (base : BitVec 15) (len : U16) (payload : List Byte) :
    decodeType reg (0#1 ++ base) len payload =
      if classOperandsOk len payload then
        if base = 1 then .ok (.cmdHi len payload)
        else if (registrySize reg base).isSome then .ok (.cmd base len payload)
        else .ok (.unknown base len payload)
      else .error .classOperands := by
  have ha : (0#1 ++ base).getLsbD 15 = false := ackBit_append 0 base
  have hb : (0#1 ++ base).extractLsb' 0 15 = base := baseCode_append 0 base
  simp only [decodeType, ha, hb, Bool.false_eq_true, if_false]

/-- A type field is its ACK bit and its base code (R62). -/
theorem exists_type_eq_append (type : U16) :
    ∃ base : BitVec 15, type = 1#1 ++ base ∨ type = 0#1 ++ base := by
  refine ⟨baseCode type, ?_⟩
  have h := type_split type
  split at h
  · exact .inl h.symm
  · exact .inr h.symm

variable {type len : U16} {payload : List Byte}

theorem encodesRow_of_decodeType (h : decodeType reg type len payload = .ok i) :
    EncodesRow reg (.typeField type len payload) i := by
  obtain ⟨base, rfl | rfl⟩ := exists_type_eq_append type
  · rw [decodeType_ack] at h
    split_ifs at h with hok
    cases h
    exact ⟨rfl, hok, rfl⟩
  · rw [decodeType_base] at h
    split_ifs at h with hok hb hr <;> cases h
    · exact ⟨by rw [hb]; rfl, hok, rfl⟩
    · exact ⟨rfl, by rw [Instr.wf, hok, decide_eq_true hb, Bool.and_self], hr⟩
    · exact ⟨rfl, by rw [Instr.wf, hok, decide_eq_true hb, Bool.and_self], by simpa [Instr.selected] using hr⟩

/-! The marker bytes and the event codes -/

theorem encodesRow_of_decodeMarker {b : Byte} (h : decodeMarker b = .ok i) : EncodesRow reg (.byte b) i := by
  unfold decodeMarker at h
  split_ifs at h with hd hf <;> cases h
  · exact ⟨by rw [hd]; rfl, rfl, rfl⟩
  · exact ⟨by rw [hf]; rfl, rfl, rfl⟩

theorem encodesRow_decodeEvent (reg : Registry) (code : BitVec 3) :
    EncodesRow reg (.event code) (decodeEvent code) where
  encoded := by revert code; decide
  wf := by revert code; decide
  selected := by unfold decodeEvent; split_ifs <;> rfl

theorem decodeEvent_rsvd {low : BitVec 2} (h : low ≠ 0) : decodeEvent (1#1 ++ low) = .evRsvd low := by
  revert low
  decide

/-! The two directions -/

theorem encodesRow_of_decodeWord {w : TableWord} (h : decodeWord reg w = .ok i) : EncodesRow reg w i := by
  cases w with
  | cmd word => cases h; exact encodesRow_decodeCommand reg word
  | typeField type len payload => exact encodesRow_of_decodeType h
  | byte b => exact encodesRow_of_decodeMarker h
  | event code => cases h; exact encodesRow_decodeEvent reg code

theorem decodeWord_of_encodesRow {w : TableWord} (h : EncodesRow reg w i) : decodeWord reg w = .ok i := by
  obtain ⟨henc, hwf, hsel⟩ := h
  cases i with
  | nop data => cases henc; exact congrArg _ (decodeCommand_append 0 data)
  | feed b => cases henc; exact congrArg _ (decodeCommand_append 1 b)
  | reset data => cases henc; exact congrArg _ (decodeCommand_append 2 data)
  | rsvd data => cases henc; exact congrArg _ (decodeCommand_append 3 data)
  | ack base len payload => cases henc; exact (decodeType_ack reg base len payload).trans (if_pos hwf)
  | cmdHi len payload => cases henc; exact (decodeType_base reg 1 len payload).trans (if_pos hwf)
  | cmd base len payload =>
    cases henc
    obtain ⟨hb, hok⟩ := Bool.and_eq_true_iff.1 hwf
    have hr : (registrySize reg base).isSome = true := hsel
    rw [decodeWord, decodeType_base, if_pos hok, if_neg (of_decide_eq_true hb), if_pos hr]
  | unknown base len payload =>
    cases henc
    obtain ⟨hb, hok⟩ := Bool.and_eq_true_iff.1 hwf
    have hr : ¬(registrySize reg base).isSome = true := by simpa [Instr.selected] using hsel
    rw [decodeWord, decodeType_base, if_pos hok, if_neg (of_decide_eq_true hb), if_neg hr]
  | markerD => cases henc; rfl
  | markerF => cases henc; rfl
  | evDecoded => cases henc; rfl
  | evBadMarker => cases henc; rfl
  | evChecksumMismatch => cases henc; rfl
  | evLengthMismatch => cases henc; rfl
  | evUnknownType => cases henc; rfl
  | evRsvd low => cases henc; exact congrArg _ (decodeEvent_rsvd (of_decide_eq_true hwf))
  | _ => cases henc

/-- Settles O46: decoding a word and encoding its row are the two directions of `EncodesRow`. -/
theorem decodeAndEncodeAgree : Obligations.DecodeAndEncodeAgree := by
  unfold Obligations.DecodeAndEncodeAgree
  refine ⟨fun reg i w hwf hsel henc => decodeWord_of_encodesRow ⟨henc, hwf, hsel⟩, fun reg w i h => ?_⟩
  obtain ⟨henc, hwf, hsel⟩ := encodesRow_of_decodeWord h
  exact ⟨henc, hwf, hsel⟩

/-- Settles O45, by running the decoders. -/
theorem someWordsDecodeAsTheSpecSays : Obligations.SomeWordsDecodeAsTheSpecSays := by
  unfold Obligations.SomeWordsDecodeAsTheSpecSays
  decide

end Sys2Proof.Machine
end

section
/-! PROOFS. The rows of a type field return what the classifier returns for it (spec/42_type_classifier.md R160). -/

namespace Sys2Proof.Machine

variable {reg : Registry} {base : BitVec 15}

theorem classify_ack (reg : Registry) (base : BitVec 15) (len : Nat) (payload : List Byte) :
    classify reg (1#1 ++ base) len payload = classifyAck len payload := by
  rw [classify, ackBit_append]
  rfl

/-- Without the ACK bit the class is the registry's answer for the base code (R160, R162). -/
theorem classify_of_registered {size : Fin 2049} (h : registrySize reg base = some size) (len : Nat)
    (payload : List Byte) : classify reg (0#1 ++ base) len payload = classifyCmd size len := by
  simp [classify, ackBit_append, baseCode_append, h]

theorem classify_of_unregistered (h : registrySize reg base = none) (len : Nat) (payload : List Byte) :
    classify reg (0#1 ++ base) len payload = classifyUnknown := by
  simp [classify, ackBit_append, baseCode_append, h]

/-- Settles O29, by the ACK bit and the registry, which select both the row and the class. -/
theorem typeRowsAgreeWithClassify : Obligations.TypeRowsAgreeWithClassify := by
  unfold Obligations.TypeRowsAgreeWithClassify
  intro s type len payload i h
  rw [exec_classify]
  obtain ⟨base, rfl | rfl⟩ := exists_type_eq_append type
  · rw [decodeType_ack] at h
    split at h <;> cases h
    rw [exec_ack, classify_ack]
  · rw [decodeType_base] at h
    split_ifs at h with hok hb hr <;> cases h
    · rw [exec_cmdHi, classify_of_registered (size := s.cfg.reg.hiSize) (if_pos hb)]
    · obtain ⟨size, hsize⟩ := Option.isSome_iff_exists.1 hr
      simp [execCmd, hsize, classify_of_registered hsize]
    · have hnone : registrySize s.cfg.reg base = none := by simpa using hr
      simp [execUnknown, hnone, classify_of_unregistered hnone]

end Sys2Proof.Machine
end

section
/-! PROOFS. The word presented for the host (log entries 15 and 24). -/

namespace Sys2Proof.Machine

variable {i : Instr}

theorem select_pending (s : State) (word : TableWord) : (s.select word).pending = s.pending := by
  cases word with
  | byte b => simp only [State.select]; split <;> rfl
  | _ => rfl

theorem select_owner (s : State) (word : TableWord) : (s.select word).owner = s.owner := by
  cases word with
  | byte b => simp only [State.select]; split <;> rfl
  | _ => rfl

/-- What is presented for the host is taken in next, on the state that selects its row. -/
theorem step_presentWord {s t : State} {word : TableWord}
    (h : (s.select word).receive (itemOf (s.owner.getD 0) word) = .run i t) :
    step (s.presentWord word) = exec i t := by
  refine step_of_receive_run (rest := s.pending) rfl ?_
  rwa [State.presentWord, ← select_pending s word]

theorem withFetchWord_of_tableWord (s : State) {nbits w : Nat} {word : TableWord} (h : tableWord nbits w = some word) :
    s.withFetchWord nbits w = s.presentWord word := by
  simp [State.withFetchWord, h]

theorem decodeWord_of_decodeTableWord {nbits w : Nat} {word : TableWord} (h : tableWord nbits w = some word)
    (hi : decodeTableWord nbits w = some i) : decodeWord hiOnlyRegistry word = .ok i := by
  simp only [decodeTableWord, h] at hi
  cases hd : decodeWord hiOnlyRegistry word <;> rw [hd] at hi <;> cases hi
  rfl

/-- The producer that presents a word for the host owns the block, or is number 0 before there is an owner. -/
theorem select_fromProducer (s : State) (word : TableWord) (i : Instr) :
    (s.select word).fromProducer (s.owner.getD 0) i = .run i { s.select word with owner := some (s.owner.getD 0) } := by
  refine fromProducer_of_owner ?_
  rw [select_owner]
  cases s.owner with
  | none => exact .inl rfl
  | some q => exact .inr rfl

/-- Settles O41, one format at a time. -/
theorem presentedWordIsTheNextInstruction : Obligations.PresentedWordIsTheNextInstruction := by
  unfold Obligations.PresentedWordIsTheNextInstruction
  intro s nbits w word i hw hi
  have hd := decodeWord_of_decodeTableWord hw hi
  rw [withFetchWord_of_tableWord s hw]
  refine step_presentWord ?_
  cases word with
  | cmd word => cases hd; exact select_fromProducer s (.cmd word) _
  | typeField type len payload => exact receive_typeField_of_decode hd
  | byte b => exact (receive_marker_of_decode _ _ hd).trans (select_fromProducer s (.byte b) i)
  | event code => cases hd; rfl

end Sys2Proof.Machine
end

section
/-! PROOFS. The event rows (spec/30_encoding.md R71): each is the engine's next action, where that emits its code. -/

namespace Sys2Proof.Machine

variable {s : State} {a : Action} {code : BitVec 3}

theorem emitting_of_event (ha : s.enabled = some a) (he : (a.event s.hunt).map Event.code = some code) :
    s.emitting code = .next (s.perform a) := by
  simp [State.emitting, ha, he]

theorem emitting_of_no_event (h : ∀ a, s.enabled = some a → (a.event s.hunt).map Event.code ≠ some code) :
    s.emitting code = .refused .notEnabled := by
  unfold State.emitting
  split
  · rfl
  · exact if_neg (h _ ‹_›)

/-- In ACC the decoder's answer decides the action (R195 to R197). -/
theorem enabled_of_acc (hst : s.st = .acc) : s.enabled = enabledAcc (decodeFrame s.cfg s.win) := by
  rw [State.enabled, hst]

/-- A SKIP is enabled on both forms of its condition (R193). -/
theorem enabled_skip (hst : s.st = .seek)
    (h : (1 ≤ s.win.length ∧ byteAt s.win 0 ≠ 0x44) ∨
      (2 ≤ s.win.length ∧ byteAt s.win 0 = 0x44 ∧ byteAt s.win 1 ≠ 0x46)) : s.enabled = some .skip := by
  have hw : ¬seekWaits s.win = true := by
    simp only [seekWaits, Bool.or_eq_true, List.isEmpty_iff_length_eq_zero, decide_eq_true_eq, not_or]
    obtain ⟨hlen, h0⟩ | ⟨hlen, -⟩ := h
    · exact ⟨by omega, fun hone => h0 hone.2⟩
    · exact ⟨by omega, by omega⟩
  rw [State.enabled, hst]
  dsimp only
  rw [enabledSeek, if_neg hw]
  obtain ⟨-, h0⟩ | ⟨-, h0, h1⟩ := h
  · rw [if_pos h0]
  · rw [if_neg (not_not_intro h0), if_pos h1]

/-- SKIP, as the fields it writes (R193); it is performed in SEEK and stays there. -/
theorem skip_eq_of_seek (hst : s.st = .seek) :
    s.skip = { s with
      win := s.win.drop 1
      head := s.head + 1
      hunt := true
      out := if s.hunt then s.out else s.out ++ [⟨.error .badMarker, s.head⟩] } := by
  rw [← s.skip_out, hst]
  cases hh : s.hunt <;> rw [State.skip, hh] <;> rfl

/-- Settles O16: the decoder's answer enables the action that emits the row's code. -/
theorem eventRowsOfACandidate : Obligations.EventRowsOfACandidate := by
  unfold Obligations.EventRowsOfACandidate
  intro s hst
  have henabled := enabled_of_acc hst
  refine ⟨fun m k hd => ?_, fun hd => ?_, fun hd => ?_⟩
  all_goals
    rw [hd] at henabled
    exact emitting_of_event henabled rfl

/-- Settles O17: SKIP is the next action, and emits BadMarker exactly where `hunt` is 0. -/
theorem eventRowOfAHunt : Obligations.EventRowOfAHunt := by
  unfold Obligations.EventRowOfAHunt
  intro s hst hwin
  have henabled := enabled_skip hst hwin
  refine ⟨fun hh => ?_, fun hh => ?_⟩
  · rw [exec_evBadMarker, emitting_of_event henabled (by rw [hh]; rfl)]
    exact congrArg _ ((skip_eq_of_seek hst).trans (by rw [hh]; rfl))
  · refine emitting_of_no_event fun a ha => ?_
    cases henabled.symm.trans ha
    rw [hh]
    exact nofun

/-- Settles O18, one row at a time. -/
theorem eventRowsStopUnlessTheirEventIsNext : Obligations.EventRowsStopUnlessTheirEventIsNext := by
  unfold Obligations.EventRowsStopUnlessTheirEventIsNext
  intro s i code hi h
  have hrefused := emitting_of_no_event h
  simp only [List.mem_cons, List.not_mem_nil, or_false, Prod.mk.injEq] at hi
  obtain ⟨rfl, rfl⟩ | ⟨rfl, rfl⟩ | ⟨rfl, rfl⟩ | ⟨rfl, rfl⟩ := hi
  all_goals exact hrefused

/-- Settles O19: the arms of the two rows. -/
theorem reservedEventCodesAreRefused : Obligations.ReservedEventCodesAreRefused := by
  unfold Obligations.ReservedEventCodesAreRefused
  exact fun low s => ⟨exec_evUnknownType s, exec_evRsvd s low⟩

end Sys2Proof.Machine
end

section
/-! PROOFS. FEED where the drain is short (spec/43_synchronizer.md R183, R188), and the marker bytes that open a
candidate (spec/30_encoding.md R68). -/

namespace Sys2Proof.Machine

variable {s : State} {a : Action}

theorem drainUpTo_of_enabled (n : Nat) (ha : s.enabled = some a) :
    s.drainUpTo (n + 1) = (s.perform a).drainUpTo n := by
  simp [State.drainUpTo, ha]

theorem drainUpTo_of_inReady (n : Nat) (h : s.inReady = true) : s.drainUpTo n = s := by
  have hn := (enabled_eq_none_iff s).2 h
  cases n <;> simp [State.drainUpTo, hn]

/-- More fuel than `mu` changes nothing (R189). -/
theorem drainUpTo_eq_of_mu_le : ∀ (n m : Nat) (s : State), s.mu ≤ n → s.mu ≤ m → s.drainUpTo n = s.drainUpTo m
  | n, m, s, hn, hm => by
    cases ha : s.enabled with
    | none =>
      have hs := (enabled_eq_none_iff s).1 ha
      rw [drainUpTo_of_inReady n hs, drainUpTo_of_inReady m hs]
    | some a =>
      have hmu := perform_mu_lt ha
      obtain ⟨n, rfl⟩ := Nat.exists_eq_add_one_of_ne_zero (show n ≠ 0 by omega)
      obtain ⟨m, rfl⟩ := Nat.exists_eq_add_one_of_ne_zero (show m ≠ 0 by omega)
      rw [drainUpTo_of_enabled n ha, drainUpTo_of_enabled m ha]
      exact drainUpTo_eq_of_mu_le n m _ (by omega) (by omega)
  termination_by n => n

/-- A drain performs the enabled action and drains what that leaves (R188). -/
theorem drain_of_enabled (ha : s.enabled = some a) : s.drain = (s.perform a).drain := by
  have hmu := perform_mu_lt ha
  obtain ⟨n, hn⟩ : ∃ n, s.mu = n + 1 := Nat.exists_eq_add_one_of_ne_zero (by omega)
  rw [State.drain, hn, drainUpTo_of_enabled n ha]
  exact drainUpTo_eq_of_mu_le n _ _ (by omega) le_rfl

theorem feedByte_of_inReady (h : s.inReady = true) (b : Byte) : s.feedByte b = (s.memWrite b).drain :=
  whenReady_of_inReady h _

theorem inReady_of_seek (hst : s.st = .seek) : s.inReady = seekWaits s.win := by
  rw [State.inReady, State.quiescent, hst]

theorem inReady_of_acc (hst : s.st = .acc) : s.inReady = decide (decodeFrame s.cfg s.win = .incomplete) := by
  rw [State.inReady, State.quiescent, hst]

/-- The marker alone is an incomplete frame (R124). -/
theorem decodeFrame_marker (p : Params) : decodeFrame p [0x44, 0x46] = .incomplete := by
  rw [decodeFrame_of_markerOk ⟨fun _ => rfl, fun _ => rfl⟩]
  exact if_pos (by decide)

/-- Byte 0 of a marker waits in the window (R187). -/
theorem feedByte_markerD (hst : s.st = .seek) (hwin : s.win = []) : s.feedByte 0x44 = { s with win := [0x44] } := by
  have hready : s.inReady = true := by rw [inReady_of_seek hst, hwin]; rfl
  have hwrite : s.memWrite 0x44 = { s with win := [0x44] } := by rw [State.memWrite, hwin]; rfl
  rw [feedByte_of_inReady hready, hwrite]
  exact drain_of_inReady (inReady_of_seek hst)

/-- Byte 1 of a marker locks, and the candidate waits in ACC (R194). -/
theorem feedByte_markerF (hst : s.st = .seek) (hwin : s.win = [0x44]) :
    s.feedByte 0x46 = { s with st := .acc, win := [0x44, 0x46] } := by
  have hready : s.inReady = true := by rw [inReady_of_seek hst, hwin]; rfl
  have hwrite : s.memWrite 0x46 = { s with win := [0x44, 0x46] } := by rw [State.memWrite, hwin]; rfl
  have hlock : State.enabled { s with win := [0x44, 0x46] } = some .lock := by rw [State.enabled, hst]; rfl
  rw [feedByte_of_inReady hready, hwrite, drain_of_enabled hlock]
  refine drain_of_inReady ?_
  rw [inReady_of_acc (by rfl)]
  exact decide_eq_true (decodeFrame_marker s.cfg)

/-- Settles O10: the marker rows are FEED of their bytes. -/
theorem markerBytesOpenACandidate : Obligations.MarkerBytesOpenACandidate := by
  unfold Obligations.MarkerBytesOpenACandidate
  intro s hst
  refine ⟨fun hwin => ?_, fun hwin => ?_⟩
  · rw [exec_markerD, exec_feed, feedByte_markerD hst hwin]
    exact ⟨rfl, rfl⟩
  · rw [exec_markerF, exec_feed, feedByte_markerF hst hwin]
    exact ⟨rfl, rfl⟩

end Sys2Proof.Machine
end

section
/-! PROOFS. The checksum validator (spec/40_checksum.md R102 to R104). -/

namespace Sys2Proof.Machine

/-- Settles O20: a payload within the limit is in the domain of `compute`. -/
theorem computeIsTheChecksumOfTheFields : Obligations.ComputeIsTheChecksumOfTheFields := by
  unfold Obligations.ComputeIsTheChecksumOfTheFields
  intro m0 m1 id type len payload s hlen
  rw [exec_ckCompute, execCkCompute, if_pos hlen]
  rfl

/-- `verify` accepts a sequence of a possible frame length that ends in the CKSUM of the rest (R103). -/
theorem verify_iff (p : Params) (f : List Byte) :
    verify p f = true ↔ 12 ≤ f.length ∧ f.length ≤ 2060 ∧
      cksumFn p.cksum (f.take (f.length - 2)) = memRead16 p.endian f (f.length - 2) := by
  unfold verify
  split
  case isTrue hout => exact iff_of_false Bool.false_ne_true fun ⟨hmin, hmax, _⟩ => by omega
  case isFalse hin =>
    obtain ⟨hmin, hmax⟩ : 12 ≤ f.length ∧ f.length ≤ 2060 := by omega
    rw [beq_iff_eq, and_iff_right hmin, and_iff_right hmax]

/-- Settles O21: the answer is the value of `verify`. -/
theorem verifyComparesTheLastTwoBytes : Obligations.VerifyComparesTheLastTwoBytes := by
  unfold Obligations.VerifyComparesTheLastTwoBytes
  exact fun f s => ⟨verify s.cfg f, exec_ckVerify s f, verify_iff s.cfg f⟩

section Frame

variable (p : Params) (id : U32) (type : U16) (payload : List Byte)

@[simp] theorem frame_length : (frame p id type payload).length = 12 + payload.length :=
  frameBytes_length ..

/-- The checksum field of a built frame is what `compute` gives for its fields (R16). -/
theorem checksumField_frame :
    checksumField p.endian (frame p id type payload) payload.length =
      compute p [0x44, 0x46] id type (BitVec.ofNat 16 payload.length) payload := by
  have h := checksumField_frameBytes p.endian id type (BitVec.ofNat 16 payload.length) payload
    (compute p [0x44, 0x46] id type (BitVec.ofNat 16 payload.length) payload) []
  rwa [List.append_nil] at h

/-- `compute` takes CKSUM of the covered region of the frame built from its operands (R100). -/
theorem cksumFn_coveredRegion_frame :
    cksumFn p.cksum (coveredRegion (frame p id type payload) payload.length) =
      compute p [0x44, 0x46] id type (BitVec.ofNat 16 payload.length) payload := by
  have h := coveredRegion_frameBytes p.endian id type (BitVec.ofNat 16 payload.length) payload
    (compute p [0x44, 0x46] id type (BitVec.ofNat 16 payload.length) payload) []
  rw [List.append_nil] at h
  exact congrArg (cksumFn p.cksum) h

end Frame

/-- Settles O22: all but the last two bytes of a frame are its covered region, and those two its checksum field. -/
theorem frameVerifies : Obligations.FrameVerifies := by
  unfold Obligations.FrameVerifies
  intro p id type payload hlen
  have hck := checksumField_frame p id type payload
  have hlast : (frame p id type payload).length - 2 = 10 + payload.length := by
    rw [frame_length]
    omega
  refine ⟨(verify_iff p _).2 ⟨?_, ?_, ?_⟩, hck⟩
  · rw [frame_length]
    omega
  · rw [frame_length]
    omega
  · rw [hlast]
    exact (cksumFn_coveredRegion_frame p id type payload).trans hck.symm

end Sys2Proof.Machine
end

section
/-! PROOFS. Where the class rows, CLASSIFY and CK_COMPUTE stop (spec/30_encoding.md R69, spec/40_checksum.md R102,
spec/42_type_classifier.md R160). -/

namespace Sys2Proof.Machine

variable {s : State} {base : BitVec 15} {len : U16} {payload : List Byte}

theorem retClass_of_outside_domain (h : classOperandsOk len payload = false) (r : ClassResult) :
    s.retClass len payload r = .refused .operandDomain := by
  rw [State.retClass, h]
  rfl

theorem execCkCompute_of_outside_domain (h : 2048 < payload.length) (m0 m1 : Byte) (id : U32) (type len : U16) :
    execCkCompute m0 m1 id type len payload s = .refused .operandDomain :=
  if_neg (Nat.not_le.2 h)

theorem execCmd_of_unregistered (h : registrySize s.cfg.reg base = none) :
    execCmd base len payload s = .refused .notSelected := by
  rw [execCmd, h]

theorem execCmd_of_registered {size : Fin 2049} (h : registrySize s.cfg.reg base = some size) :
    execCmd base len payload s = s.retClass len payload (classifyCmd size len.toNat) := by
  rw [execCmd, h]

theorem execUnknown_of_unregistered (h : registrySize s.cfg.reg base = none) :
    execUnknown base len payload s = s.retClass len payload classifyUnknown := by
  rw [execUnknown, h]

theorem execUnknown_of_registered {size : Fin 2049} (h : registrySize s.cfg.reg base = some size) :
    execUnknown base len payload s = .refused .notSelected := by
  rw [execUnknown, h]

/-- Settles O28: the registry selects CMD or UNKNOWN first, and the selected row checks its operands. -/
theorem operandsOutsideTheDomainAreRefused : Obligations.OperandsOutsideTheDomainAreRefused := by
  unfold Obligations.OperandsOutsideTheDomainAreRefused
  refine fun s => ⟨fun base type len payload hdom => ?classRows, fun m0 m1 id type len payload hlen => ?ckCompute,
    fun base len payload => ?registry⟩
  case classRows =>
    rw [exec_ack, exec_cmdHi, exec_classify]
    exact ⟨retClass_of_outside_domain hdom _, retClass_of_outside_domain hdom _, retClass_of_outside_domain hdom _⟩
  case ckCompute => exact execCkCompute_of_outside_domain hlen m0 m1 id type len
  case registry =>
    rw [exec_cmd, exec_unknown]
    cases hreg : registrySize s.cfg.reg base with
    | none =>
      refine ⟨fun _ => execCmd_of_unregistered hreg, fun h => absurd rfl h,
        fun hdom => ⟨fun h => absurd rfl h, fun _ => ?_⟩⟩
      rw [execUnknown_of_unregistered hreg, retClass_of_outside_domain hdom]
    | some size =>
      refine ⟨nofun, fun _ => execUnknown_of_registered hreg, fun hdom => ⟨fun _ => ?_, nofun⟩⟩
      rw [execCmd_of_registered hreg, retClass_of_outside_domain hdom]

end Sys2Proof.Machine
end

section
/-! PROOFS. The checks of `decode`, one after the other (spec/41_frame_decoder.md R122 to R128), and the four cases in
which it is Incomplete (R129). -/

namespace Sys2Proof.Machine

section Checks

variable {p : Params} {w : List Byte} {len : Nat}

/-- R124: the declared length is not yet readable. -/
theorem decodeFrame_of_length_lt (hm : MarkerOk w) (h : w.length < 10) : decodeFrame p w = .incomplete := by
  rw [decodeFrame_of_markerOk hm, if_pos h]

/-- R125: a declared length over the bound is rejected in phase 1. -/
theorem decodeFrame_of_lengthField_gt (hm : MarkerOk w) (h : 10 ≤ w.length) (hL : 2048 < lengthField p.endian w) :
    decodeFrame p w = .invalid .lengthMismatch := by
  rw [decodeFrame_of_markerOk hm, if_neg (by omega), if_pos hL]

/-- Phase 1 passes to phase 2 (R121). -/
theorem decodeFrame_of_lengthField_le (hm : MarkerOk w) (h : 10 ≤ w.length) (hL : lengthField p.endian w ≤ 2048) :
    decodeFrame p w = decodeBody p w (lengthField p.endian w) := by
  rw [decodeFrame_of_markerOk hm, if_neg (by omega), if_neg (by omega)]

theorem decodeBody_of_length_lt (h : w.length < 12 + len) : decodeBody p w len = .incomplete := if_pos h

theorem decodeBody_of_cksum_ne (h : 12 + len ≤ w.length)
    (hck : cksumFn p.cksum (coveredRegion w len) ≠ checksumField p.endian w len) :
    decodeBody p w len = .invalid .checksumMismatch := by
  rw [decodeBody, if_neg (by omega), if_pos hck]

theorem decodeBody_of_cksum_eq (h : 12 + len ≤ w.length)
    (hck : cksumFn p.cksum (coveredRegion w len) = checksumField p.endian w len) :
    decodeBody p w len = decodeFields p w len := by
  rw [decodeBody, if_neg (by omega), if_neg (not_not_intro hck)]

/-- What passes the marker checks: too few bytes to fail one, or the whole marker in front. -/
theorem markerOk_iff (w : List Byte) : MarkerOk w ↔ w = [] ∨ w = [0x44] ∨ startsWithMarker w = true := by
  match w with
  | [] => simp [MarkerOk]
  | [a] => simp [MarkerOk, startsWithMarker, byteAt]
  | a :: b :: rest => simp [MarkerOk, startsWithMarker, byteAt]

theorem decodeFrame_incomplete_iff (p : Params) (w : List Byte) :
    decodeFrame p w = .incomplete ↔
      MarkerOk w ∧ (w.length < 10 ∨
        10 ≤ w.length ∧ lengthField p.endian w ≤ 2048 ∧ w.length < 12 + lengthField p.endian w) := by
  refine ⟨fun h => ?_, fun ⟨hm, h⟩ => ?_⟩
  · obtain ⟨hm, h⟩ := decodeFrame_incomplete h
    exact ⟨hm, by omega⟩
  · obtain h | ⟨h10, hL, hlen⟩ := h
    · exact decodeFrame_of_length_lt hm h
    · rw [decodeFrame_of_lengthField_le hm h10 hL, decodeBody_of_length_lt hlen]

/-- A read that ends within the first `n` bytes is a read of the whole sequence (R13). -/
theorem memRead16_take {n i : Nat} (hi : i + 2 ≤ n) (hn : n ≤ w.length) (e : Endian) :
    memRead16 e (w.take n) i = memRead16 e w i := by
  have h := memRead16_append (w := w.take n) (i := i) (by rw [List.length_take]; omega) e (w.drop n)
  rwa [List.take_append_drop, eq_comm] at h

/-- The checksum check is `verify` of the declared frame (R105, R127). -/
theorem verify_take_iff (hL : len ≤ 2048) (h : 12 + len ≤ w.length) :
    verify p (w.take (12 + len)) = true ↔
      cksumFn p.cksum (coveredRegion w len) = checksumField p.endian w len := by
  have hcov : (w.take (12 + len)).take (10 + len) = coveredRegion w len := by
    rw [List.take_take, coveredRegion, Nat.min_eq_left (by omega)]
  rw [verify_iff, List.length_take_of_le h, show 12 + len - 2 = 10 + len by omega, hcov,
    memRead16_take (by omega) h, ← checksumField]
  exact ⟨fun ⟨_, _, hck⟩ => hck, fun hck => ⟨by omega, by omega, hck⟩⟩

end Checks

/-- Settles O30: a wrong byte fails its marker check, and an absent byte fails none. -/
theorem decodeRejectsABadMarkerAtOnce : Obligations.DecodeRejectsABadMarkerAtOnce := by
  unfold Obligations.DecodeRejectsABadMarkerAtOnce
  intro p a b rest
  refine ⟨fun ha => ?first, fun hb => ?second, decodeFrame_nil p, ?awaited⟩
  case first => exact decodeFrame_of_not_markerOk fun hm => ha (hm.1 (by simp))
  case second => exact decodeFrame_of_not_markerOk fun hm => hb (hm.2 (by simp))
  case awaited => exact decodeFrame_of_length_lt ((markerOk_iff _).2 (.inr (.inl rfl))) (by decide)

/-- Settles O31: the premises are the two marker checks. -/
theorem decodeAwaitsTheHeader : Obligations.DecodeAwaitsTheHeader := by
  unfold Obligations.DecodeAwaitsTheHeader
  exact fun p w hlen h0 h1 => decodeFrame_of_length_lt ⟨h0, h1⟩ hlen

/-- Settles O32: the bound ends phase 1, and the wait for the frame begins phase 2. -/
theorem decodeBoundsTheLengthThenAwaitsTheFrame : Obligations.DecodeBoundsTheLengthThenAwaitsTheFrame := by
  unfold Obligations.DecodeBoundsTheLengthThenAwaitsTheFrame
  intro p w h10 hs
  have hm := markerOk_of_startsWithMarker hs
  exact ⟨fun hL => decodeFrame_of_lengthField_gt hm h10 hL,
    fun hL hlen => (decodeFrame_of_lengthField_le hm h10 hL).trans (decodeBody_of_length_lt hlen)⟩

/-- Settles O33: the checksum check is `verify`, and comes before the classifier. -/
theorem decodeChecksTheChecksumFirst : Obligations.DecodeChecksTheChecksumFirst := by
  unfold Obligations.DecodeChecksTheChecksumFirst
  rintro p w len hs rfl hL hlen
  refine ⟨?verify, fun hck => ?mismatch⟩
  case verify => exact (not_congr (verify_take_iff hL hlen)).symm.trans Bool.eq_false_iff.symm
  case mismatch =>
    exact (decodeFrame_of_lengthField_le (markerOk_of_startsWithMarker hs) (by omega) hL).trans
      (decodeBody_of_cksum_ne hlen hck)

/-- Settles O34: past every check, `decode` is the classifier's answer on the fields. -/
theorem decodeExtractsTheFields : Obligations.DecodeExtractsTheFields := by
  unfold Obligations.DecodeExtractsTheFields
  rintro p w len hs rfl hL hlen hck
  have hfields : decodeFrame p w = decodeFields p w (lengthField p.endian w) :=
    (decodeFrame_of_lengthField_le (markerOk_of_startsWithMarker hs) (by omega) hL).trans
      (decodeBody_of_cksum_eq hlen hck)
  exact ⟨fun hbad => hfields.trans (decodeFields_of_bad hbad),
    fun cls rc hok => hfields.trans (decodeFields_of_ok hok)⟩

/-- Settles O35: by what passes the marker checks, and whether the length field is present. -/
theorem incompleteInExactlyFourCases : Obligations.IncompleteInExactlyFourCases := by
  unfold Obligations.IncompleteInExactlyFourCases
  intro p w
  rw [decodeFrame_incomplete_iff, markerOk_iff]
  refine ⟨⟨fun ⟨hm, h⟩ => ?toCases, fun hcases => ?ofCases⟩, fun ⟨_, h⟩ => by omega⟩
  case toCases =>
    obtain rfl | rfl | hs := hm
    · exact .inl rfl
    · exact .inr (.inl rfl)
    · have htake := of_decide_eq_true hs
      obtain ⟨h2, -⟩ := (startsWithMarker_iff w).1 hs
      obtain h | ⟨h10, hL, hlen⟩ := h
      · exact .inr (.inr (.inl ⟨h2, by omega, htake⟩))
      · exact .inr (.inr (.inr ⟨h10, htake, hL, hlen⟩))
  case ofCases =>
    obtain rfl | rfl | ⟨-, h9, htake⟩ | ⟨h10, htake, hL, hlen⟩ := hcases
    · exact ⟨.inl rfl, .inl (by decide)⟩
    · exact ⟨.inr (.inl rfl), .inl (by decide)⟩
    · exact ⟨.inr (.inr (decide_eq_true htake)), .inl (by omega)⟩
    · exact ⟨.inr (.inr (decide_eq_true htake)), .inr ⟨h10, hL, hlen⟩⟩

end Sys2Proof.Machine
end

section
/-! PROOFS. `decode` reads the declared frame and nothing after it (spec/41_frame_decoder.md R130), so its decisions
stand when bytes follow (R131). -/

namespace Sys2Proof.Machine

variable {p : Params} {w : List Byte} {len : Nat}

theorem markerOk_append (hm : MarkerOk w) (h2 : 2 ≤ w.length) (u : List Byte) : MarkerOk (w ++ u) := by
  have hs := (startsWithMarker_iff w).2 ⟨h2, hm.1 (by omega), hm.2 h2⟩
  exact markerOk_of_startsWithMarker (startsWithMarker_append hs u)

theorem markerOk_of_append {u : List Byte} (hm : MarkerOk (w ++ u)) : MarkerOk w := by
  refine ⟨fun h => ?_, fun h => ?_⟩
  · rw [← byteAt_append_left (by omega) u]
    exact hm.1 (by rw [List.length_append]; omega)
  · rw [← byteAt_append_left (by omega) u]
    exact hm.2 (by rw [List.length_append]; omega)

theorem lengthField_append (h : 10 ≤ w.length) (e : Endian) (u : List Byte) :
    lengthField e (w ++ u) = lengthField e w :=
  congrArg BitVec.toNat (memRead16_append h e u)

theorem payloadField_append (h : 10 + len ≤ w.length) (u : List Byte) :
    payloadField (w ++ u) len = payloadField w len := by
  rw [payloadField, List.drop_append_of_le_length (by omega),
    List.take_append_of_le_length (by rw [List.length_drop]; omega), payloadField]

/-- Field extraction stays inside the frame (R128, R132). -/
theorem decodeFields_append (h : 12 + len ≤ w.length) (u : List Byte) :
    decodeFields p (w ++ u) len = decodeFields p w len := by
  have hid : idField p.endian (w ++ u) = idField p.endian w := memRead32_append (by omega) _ u
  have htype : typeField p.endian (w ++ u) = typeField p.endian w := memRead16_append (by omega) _ u
  have hpayload : payloadField (w ++ u) len = payloadField w len := payloadField_append (by omega) u
  simp only [decodeFields, messageOf, hid, htype, hpayload]

/-- Phase 2 of a whole frame stays inside the frame (R126, R127, R132). -/
theorem decodeBody_append (h : 12 + len ≤ w.length) (u : List Byte) :
    decodeBody p (w ++ u) len = decodeBody p w len := by
  have hlen : ¬(w ++ u).length < 12 + len := by
    rw [List.length_append]
    omega
  have hcov : coveredRegion (w ++ u) len = coveredRegion w len := List.take_append_of_le_length (by omega)
  have hck : checksumField p.endian (w ++ u) len = checksumField p.endian w len := memRead16_append (by omega) _ u
  rw [decodeBody, if_neg hlen, hcov, hck, decodeFields_append h, decodeBody, if_neg (Nat.not_lt.2 h)]

/-- A decision was made on bytes that are present, and bytes that follow are not read (R131). -/
theorem decodeFrame_append_of_ne_incomplete (h : decodeFrame p w ≠ .incomplete) (u : List Byte) :
    decodeFrame p (w ++ u) = decodeFrame p w := by
  by_cases hm : MarkerOk w
  · have h10 : 10 ≤ w.length := by
      by_contra hlt
      exact h (decodeFrame_of_length_lt hm (by omega))
    have hm' : MarkerOk (w ++ u) := markerOk_append hm (by omega) u
    have h10' : 10 ≤ (w ++ u).length := by
      rw [List.length_append]
      omega
    have hL' := lengthField_append h10 p.endian u
    rcases Nat.lt_or_ge 2048 (lengthField p.endian w) with hL | hL
    · rw [decodeFrame_of_lengthField_gt hm h10 hL, decodeFrame_of_lengthField_gt hm' h10' (by omega)]
    · have hlen : 12 + lengthField p.endian w ≤ w.length := by
        by_contra hlt
        exact h ((decodeFrame_incomplete_iff p w).2 ⟨hm, .inr ⟨h10, hL, by omega⟩⟩)
      rw [decodeFrame_of_lengthField_le hm h10 hL, decodeFrame_of_lengthField_le hm' h10' (by omega), hL',
        decodeBody_append hlen]
  · rw [decodeFrame_of_not_markerOk hm, decodeFrame_of_not_markerOk fun hm' => hm (markerOk_of_append hm')]

/-- Settles O36: the second half is the first, read backwards. -/
theorem decodeDecisionsAreStable : Obligations.DecodeDecisionsAreStable := by
  unfold Obligations.DecodeDecisionsAreStable
  intro p w u
  refine ⟨fun h => decodeFrame_append_of_ne_incomplete h u, fun hinc => ?_⟩
  by_contra h
  exact h ((decodeFrame_append_of_ne_incomplete h u).symm.trans hinc)

/-- The declared frame, once it is all present, is enough for a decision (R129). -/
theorem decodeFrame_take_ne_incomplete (h : 12 + lengthField p.endian w ≤ w.length) :
    decodeFrame p (w.take (12 + lengthField p.endian w)) ≠ .incomplete := by
  intro hinc
  have hlen := List.length_take_of_le h
  have hL : lengthField p.endian (w.take (12 + lengthField p.endian w)) = lengthField p.endian w :=
    congrArg BitVec.toNat (memRead16_take (by omega) h p.endian)
  obtain ⟨-, hshort⟩ := decodeFrame_incomplete hinc
  omega

/-- `decode` is decided by the declared frame (R130). -/
theorem decodeFrame_take (p : Params) (w : List Byte) :
    decodeFrame p (w.take (12 + lengthField p.endian w)) = decodeFrame p w := by
  rcases Nat.le_total (12 + lengthField p.endian w) w.length with h | h
  · have happ := decodeFrame_append_of_ne_incomplete (decodeFrame_take_ne_incomplete h)
      (w.drop (12 + lengthField p.endian w))
    rwa [List.take_append_drop, eq_comm] at happ
  · rw [List.take_of_length_le h]

/-- Settles O37: the declared frame decides, and Complete counts it. -/
theorem decodeReadsOnlyTheDeclaredFrame : Obligations.DecodeReadsOnlyTheDeclaredFrame := by
  unfold Obligations.DecodeReadsOnlyTheDeclaredFrame
  refine fun p w => ⟨(decodeFrame_take p w).symm, fun m k h => ?_⟩
  obtain ⟨-, -, -, -, rfl, cls, rc, -, rfl⟩ := decodeFrame_complete h
  exact ⟨rfl, rfl⟩

end Sys2Proof.Machine
end

section
/-! PROOFS. What one flipped bit changes of the fields of a frame, and of what `decode` makes of it under P2
(spec/41_frame_decoder.md R134). -/

namespace Sys2Proof.Machine

section FlipBit

variable {w : List Byte} {i j k len : Nat}

@[simp] theorem flipBit_length (w : List Byte) (i j : Nat) : (flipBit w i j).length = w.length :=
  List.length_set

theorem byteAt_flipBit_of_ne (h : k ≠ i) : byteAt (flipBit w i j) k = byteAt w k := by
  simp [byteAt, flipBit, List.getElem?_set_ne h.symm]

theorem byteAt_flipBit_ne (hi : i < w.length) (hj : j < 8) : byteAt (flipBit w i j) i ≠ byteAt w i := by
  have h : byteAt (flipBit w i j) i = byteAt w i ^^^ (1#8 <<< j) := by
    simp [byteAt, flipBit, hi]
  rw [h]
  exact flip_ne _ hj

theorem memRead16_flipBit_of_outside (h : i < k ∨ k + 2 ≤ i) (e : Endian) :
    memRead16 e (flipBit w i j) k = memRead16 e w k := by
  cases e <;>
    simp only [memRead16, byteAt_flipBit_of_ne (show k ≠ i by omega), byteAt_flipBit_of_ne (show k + 1 ≠ i by omega)]

/-- The two bytes of a field can be told from its value. -/
theorem byteAt_eq_of_memRead16_eq {v : List Byte} {e : Endian} (h : memRead16 e v k = memRead16 e w k) :
    byteAt v k = byteAt w k ∧ byteAt v (k + 1) = byteAt w (k + 1) := by
  have hlo := congrArg (BitVec.extractLsb' 0 8) h
  have hhi := congrArg (BitVec.extractLsb' 8 8) h
  cases e with
  | le =>
    simp only [memRead16, extract_bytes16] at hlo hhi
    exact ⟨hlo, hhi⟩
  | be =>
    simp only [memRead16, extract_bytes16] at hlo hhi
    exact ⟨hhi, hlo⟩

theorem memRead16_flipBit_ne (hki : k ≤ i) (hik : i < k + 2) (hi : i < w.length) (hj : j < 8) (e : Endian) :
    memRead16 e (flipBit w i j) k ≠ memRead16 e w k := by
  intro h
  obtain ⟨h0, h1⟩ := byteAt_eq_of_memRead16_eq h
  obtain rfl | rfl : i = k ∨ i = k + 1 := by omega
  · exact byteAt_flipBit_ne hi hj h0
  · exact byteAt_flipBit_ne hi hj h1

theorem coveredRegion_length (h : 12 + len ≤ w.length) : (coveredRegion w len).length = 10 + len :=
  List.length_take_of_le (by omega)

theorem coveredRegion_flipBit_of_lt (h : i < 10 + len) :
    coveredRegion (flipBit w i j) len = flipBit (coveredRegion w len) i j := by
  have hb : byteAt (w.take (10 + len)) i = byteAt w i := by simp [byteAt, List.getElem?_take_of_lt h]
  rw [coveredRegion, coveredRegion, flipBit, flipBit, hb, List.take_set]

theorem coveredRegion_flipBit_of_ge (h : 10 + len ≤ i) : coveredRegion (flipBit w i j) len = coveredRegion w len :=
  List.take_set_of_le h

/-- A flipped bit outside the marker leaves the marker checks passed. -/
theorem markerOk_flipBit (hm : MarkerOk w) (h2 : 2 ≤ i) : MarkerOk (flipBit w i j) := by
  rw [MarkerOk, flipBit_length, byteAt_flipBit_of_ne (by omega), byteAt_flipBit_of_ne (by omega)]
  exact hm

theorem not_markerOk_flipBit (hm : MarkerOk w) (hi2 : i < 2) (hi : i < w.length) (hj : j < 8) :
    ¬MarkerOk (flipBit w i j) := by
  intro hm'
  have hne := byteAt_flipBit_ne hi hj
  have hlen := flipBit_length w i j
  obtain rfl | rfl : i = 0 ∨ i = 1 := by omega
  · exact hne ((hm'.1 (by omega)).trans (hm.1 (by omega)).symm)
  · exact hne ((hm'.2 (by omega)).trans (hm.2 (by omega)).symm)

/-- Under P2 a checksum that matched does not match after one flipped bit: the flip is in the covered region or in
the checksum field, never in both (R101, R134). -/
theorem cksum_ne_flipBit {p : Params} (hp2 : SingleBitSensitive (cksumFn p.cksum)) (hL : len ≤ 2048)
    (hlen : w.length = 12 + len) (hck : cksumFn p.cksum (coveredRegion w len) = checksumField p.endian w len)
    (hi : i < w.length) (hj : j < 8) :
    cksumFn p.cksum (coveredRegion (flipBit w i j) len) ≠ checksumField p.endian (flipBit w i j) len := by
  rcases Nat.lt_or_ge i (10 + len) with h | h
  · have hclen := coveredRegion_length hlen.ge
    have hfield : checksumField p.endian (flipBit w i j) len = checksumField p.endian w len :=
      memRead16_flipBit_of_outside (.inl h) _
    rw [hfield, ← hck, coveredRegion_flipBit_of_lt h]
    exact hp2 _ i j (by omega) (by omega) (by omega) hj
  · rw [coveredRegion_flipBit_of_ge h, hck]
    exact (memRead16_flipBit_ne h (by omega) hi hj _).symm

end FlipBit

/-- Settles O39, by the field the bit is in. -/
theorem singleBitCorruptionIsDetected : Obligations.SingleBitCorruptionIsDetected := by
  unfold Obligations.SingleBitCorruptionIsDetected
  intro p f m i j hp2 hdec hi hj
  obtain ⟨hm, -, hL, hck, hlen, cls, rc, -, rfl⟩ := decodeFrame_complete hdec
  have hlen' : (flipBit f i j).length = 12 + lengthField p.endian f := (flipBit_length f i j).trans hlen
  refine ⟨fun hi2 => ?marker, fun h2 h8 h9 => ?covered, fun h89 => ?length⟩
  case marker => exact decodeFrame_of_not_markerOk (not_markerOk_flipBit hm hi2 hi hj)
  case covered =>
    have hL' : lengthField p.endian (flipBit f i j) = lengthField p.endian f :=
      congrArg BitVec.toNat (memRead16_flipBit_of_outside (by omega) _)
    rw [decodeFrame_of_lengthField_le (markerOk_flipBit hm h2) (by omega) (by omega), hL']
    exact decodeBody_of_cksum_ne hlen'.ge (cksum_ne_flipBit hp2 hL hlen hck hi hj)
  case length =>
    have hm' : MarkerOk (flipBit f i j) := markerOk_flipBit hm (by omega)
    refine ⟨fun hover => decodeFrame_of_lengthField_gt hm' (by omega) hover, fun hlegal hgt => ?_⟩
    rw [decodeFrame_of_lengthField_le hm' (by omega) hlegal]
    exact decodeBody_of_length_lt (hlen'.trans_lt (Nat.add_lt_add_left hgt 12))

end Sys2Proof.Machine
end

section
/-! PROOFS. The rows DECODE and CLASSIFY (spec/41_frame_decoder.md R120, spec/42_type_classifier.md R160). -/

namespace Sys2Proof.Machine

theorem retClass_of_domain {len : U16} {payload : List Byte} (h : classOperandsOk len payload = true) (s : State)
    (r : ClassResult) : s.retClass len payload r = .next (s.ret (.classified r)) := by
  rw [State.retClass, if_pos h]

/-- Settles O24: each row is the return of its function's value. -/
theorem pureRowsWriteOnlyTheirResult : Obligations.PureRowsWriteOnlyTheirResult := by
  unfold Obligations.PureRowsWriteOnlyTheirResult
  intro s
  refine ⟨exec_decode s, fun type len payload hdom => ?_⟩
  rw [exec_classify, retClass_of_domain hdom]
  rfl

end Sys2Proof.Machine
end

section
/-! PROOFS. The three classes and their rows (spec/42_type_classifier.md R161 to R163, R165, R168). -/

namespace Sys2Proof.Machine

section Classes

variable {type len : U16} {payload : List Byte}

/-- A type field with the ACK bit set is the bit and its base code (R62). -/
theorem append_baseCode_of_ackBit (h : type.getLsbD 15 = true) : 1#1 ++ baseCode type = type := by
  have hsplit := type_split type
  rwa [if_pos h] at hsplit

theorem append_baseCode_of_not_ackBit (h : type.getLsbD 15 = false) : 0#1 ++ baseCode type = type := by
  have hsplit := type_split type
  rwa [if_neg (Bool.eq_false_iff.1 h)] at hsplit

/-- ACK at length 1 returns the payload's one byte as the response code. -/
theorem classifyAck_one (h : payload.length = 1) :
    ∃ b, payload = [b] ∧ classifyAck 1 payload = .ok .ack (some b) := by
  obtain ⟨b, rfl⟩ := List.length_eq_one_iff.1 h
  exact ⟨b, rfl, rfl⟩

theorem classifyAck_of_ne_one {n : Nat} (h : n ≠ 1) (payload : List Byte) : classifyAck n payload = .bad := if_neg h

/-- The domain of the classifier's operands (R160): the length is that of the payload. -/
theorem payload_length_of_domain (h : classOperandsOk len payload = true) : payload.length = len.toNat := by
  rw [classOperandsOk, Bool.and_eq_true] at h
  exact of_decide_eq_true h.2

end Classes

/-- Settles O23: the ACK bit selects `classifyAck`, and without it the registry selects `classifyCmd` or
`classifyUnknown`. -/
theorem classifyByCase : Obligations.ClassifyByCase := by
  unfold Obligations.ClassifyByCase
  intro reg type len payload _ hlen
  refine ⟨fun hack h1 => ?ack, fun hack hne => ?ackLength, fun r hbase hreg hr => ?cmd, fun r hbase hreg hne => ?cmdSize,
    fun hbase hreg => ?unknown⟩
  case ack =>
    subst h1
    rw [← append_baseCode_of_ackBit hack, classify_ack]
    exact classifyAck_one hlen
  case ackLength =>
    rw [← append_baseCode_of_ackBit hack, classify_ack, classifyAck_of_ne_one hne]
  case cmd =>
    rw [← append_baseCode_of_not_ackBit hbase, classify_of_registered hreg]
    exact if_pos hr
  case cmdSize =>
    rw [← append_baseCode_of_not_ackBit hbase, classify_of_registered hreg]
    exact if_neg hne
  case unknown =>
    rw [← append_baseCode_of_not_ackBit hbase, classify_of_unregistered hreg]
    rfl

/-- Settles O25: in the domain the row returns `classifyAck`, whatever the base code is. -/
theorem ackTakesOneByte : Obligations.AckTakesOneByte := by
  unfold Obligations.AckTakesOneByte
  intro base len payload s hdom
  rw [exec_ack, retClass_of_domain hdom]
  refine ⟨fun h1 => ?one, fun hne => ?other⟩
  case one =>
    subst h1
    obtain ⟨b, hb, hack⟩ := classifyAck_one (payload_length_of_domain hdom)
    refine ⟨b, hb, ?_⟩
    rw [← hack]
    rfl
  case other =>
    have hnat : len.toNat ≠ 1 := fun h => hne (BitVec.eq_of_toNat_eq h)
    rw [classifyAck_of_ne_one hnat]
    rfl

/-- Settles O26: both rows return `classifyCmd` of the registered size, and Hi is registered in every registry. -/
theorem commandTakesItsRegisteredSize : Obligations.CommandTakesItsRegisteredSize := by
  unfold Obligations.CommandTakesItsRegisteredSize
  intro len payload s hdom
  refine ⟨?hi, if_pos rfl, fun base size hreg => ?cmd⟩
  case hi =>
    rw [exec_cmdHi, retClass_of_domain hdom]
    rfl
  case cmd =>
    rw [exec_cmd, execCmd_of_registered hreg, retClass_of_domain hdom]
    rfl

/-- Settles O27: without an entry in the registry no length is compared. -/
theorem unknownTypeIsNotAnError : Obligations.UnknownTypeIsNotAnError := by
  unfold Obligations.UnknownTypeIsNotAnError
  intro base len payload s hdom hreg
  rw [exec_unknown, execUnknown_of_unregistered hreg, retClass_of_domain hdom]
  rfl

end Sys2Proof.Machine
end

section
/-! PROOFS. The engine actions as rows (spec/43_synchronizer.md R191 to R197): which row runs, what it writes, and that
exactly one runs in a state that is not quiescent. -/

namespace Sys2Proof.Machine

variable {s t : State} {a : Action} {i : Instr}

/-- The row of the opcode table that an engine action is. -/
def Action.row : Action → Instr
  | .skip => .skip
  | .lock => .lock
  | .accept _ _ => .accept
  | .reject _ => .reject

/-- The enabled action's row performs it (R192). -/
theorem exec_row_of_enabled (ha : s.enabled = some a) : exec a.row s = .next (s.perform a) := by
  cases a with
  | skip => simp [Action.row, execSkip, ha, State.perform]
  | lock => simp [Action.row, execLock, ha, State.perform]
  | accept m k => simp [Action.row, execAccept, ha, State.perform]
  | reject e => simp [Action.row, execReject, ha, State.perform]

theorem row_mem_engineRows (a : Action) : a.row ∈ [Instr.skip, .lock, .accept, .reject] := by
  cases a <;> simp [Action.row]

/-- The inversion of the four rows: the row of the enabled action, or a refusal. -/
theorem exec_engineRow (hi : i ∈ [Instr.skip, .lock, .accept, .reject]) :
    (∃ a, s.enabled = some a ∧ a.row = i) ∨ exec i s = .refused .notEnabled := by
  simp only [List.mem_cons, List.not_mem_nil, or_false] at hi
  obtain rfl | rfl | rfl | rfl := hi
  all_goals
    simp only [exec_skip, exec_lock, exec_accept, exec_reject, execSkip, execLock, execAccept, execReject]
    split
    · exact .inl ⟨_, ‹_›, rfl⟩
    · exact .inr rfl

/-- Settles O15: the row that runs is the row of the one enabled action. -/
theorem exactlyOneActionUnlessQuiescent : Obligations.ExactlyOneActionUnlessQuiescent := by
  unfold Obligations.ExactlyOneActionUnlessQuiescent
  intro s
  refine ⟨fun hbusy => ?busy, fun hready i hi => ?ready⟩
  case busy =>
    cases ha : s.enabled with
    | none => rw [(enabled_eq_none_iff s).1 ha] at hbusy; cases hbusy
    | some a =>
      refine ⟨a.row, ⟨row_mem_engineRows a, _, exec_row_of_enabled ha⟩, fun i ⟨hi, t, ht⟩ => ?_⟩
      obtain ⟨a', ha', rfl⟩ | hrefused := exec_engineRow (s := s) hi
      · cases ha.symm.trans ha'
        rfl
      · cases ht.symm.trans hrefused
  case ready =>
    have hnone := (enabled_eq_none_iff s).2 hready
    have hevent (code : BitVec 3) : s.emitting code = .refused .notEnabled :=
      emitting_of_no_event fun a ha => by cases hnone.symm.trans ha
    obtain hi | hi := (List.mem_append (s := [Instr.skip, .lock, .accept, .reject])).1 hi
    · obtain ⟨a, ha, -⟩ | hrefused := exec_engineRow (s := s) hi
      · cases hnone.symm.trans ha
      · exact hrefused
    · simp only [List.mem_cons, List.not_mem_nil, or_false] at hi
      obtain rfl | rfl | rfl | rfl := hi
      all_goals exact hevent _

/-- LOCK is enabled exactly in SEEK with the marker in front (R194). -/
theorem enabled_lock_iff (s : State) :
    s.enabled = some .lock ↔ s.st = .seek ∧ startsWithMarker s.win = true := by
  rw [startsWithMarker_iff]
  refine ⟨fun ha => ?_, fun ⟨hst, hlen, h0, h1⟩ => ?_⟩
  · obtain ⟨hst, hw, h0, h1⟩ : s.st = .seek ∧ seekWaits s.win = false ∧
        byteAt s.win 0 = 0x44 ∧ byteAt s.win 1 = 0x46 := by simpa using enabled_cases ha
    exact ⟨hst, seekWaits_false_two hw h0, h0, h1⟩
  · have hw : ¬seekWaits s.win = true := by
      simp only [seekWaits, Bool.or_eq_true, List.isEmpty_iff_length_eq_zero, decide_eq_true_eq]
      omega
    rw [State.enabled, hst]
    dsimp only
    rw [enabledSeek, if_neg hw, if_neg (not_not_intro h0), if_neg (not_not_intro h1)]

/-- SKIP is enabled on no other condition than its two forms (R193). -/
theorem seek_of_enabled_skip (ha : s.enabled = some .skip) : s.st = .seek ∧
    ((1 ≤ s.win.length ∧ byteAt s.win 0 ≠ 0x44) ∨
      (2 ≤ s.win.length ∧ byteAt s.win 0 = 0x44 ∧ byteAt s.win 1 ≠ 0x46)) := by
  obtain ⟨hst, hw, hbytes⟩ : s.st = .seek ∧ seekWaits s.win = false ∧
      (byteAt s.win 0 ≠ 0x44 ∨ byteAt s.win 1 ≠ 0x46) := by simpa using enabled_cases ha
  refine ⟨hst, ?_⟩
  by_cases h0 : byteAt s.win 0 = 0x44
  · exact .inr ⟨seekWaits_false_two hw h0, h0, hbytes.resolve_left (not_not_intro h0)⟩
  · exact .inl ⟨seekWaits_false_length hw, h0⟩

theorem enabled_accept_iff (s : State) (m : Message) (k : Nat) :
    s.enabled = some (.accept m k) ↔ s.st = .acc ∧ decodeFrame s.cfg s.win = .complete m k := by
  refine ⟨fun ha => by simpa using enabled_cases ha, fun ⟨hst, hd⟩ => ?_⟩
  rw [enabled_of_acc hst, hd, enabledAcc]

theorem enabled_reject_iff (s : State) (e : FrameError) :
    s.enabled = some (.reject e) ↔ s.st = .acc ∧ decodeFrame s.cfg s.win = .invalid e := by
  refine ⟨fun ha => by simpa using enabled_cases ha, fun ⟨hst, hd⟩ => ?_⟩
  rw [enabled_of_acc hst, hd, enabledAcc]

/-- Settles O11: the row performs the enabled SKIP. -/
theorem skipDropsOneByteAndReportsOnce : Obligations.SkipDropsOneByteAndReportsOnce := by
  unfold Obligations.SkipDropsOneByteAndReportsOnce
  intro s hst hwin
  exact (exec_row_of_enabled (enabled_skip hst hwin)).trans (congrArg _ (skip_eq_of_seek hst))

/-- Settles O12: the row performs the enabled LOCK. -/
theorem lockBeginsACandidate : Obligations.LockBeginsACandidate := by
  unfold Obligations.LockBeginsACandidate
  intro s hst hlen h0 h1
  exact exec_row_of_enabled ((enabled_lock_iff s).2 ⟨hst, (startsWithMarker_iff _).2 ⟨hlen, h0, h1⟩⟩)

/-- Settles O13: the row performs the enabled ACCEPT, and the decoder bounds `k`. -/
theorem acceptEmitsAndDropsTheFrame : Obligations.AcceptEmitsAndDropsTheFrame := by
  unfold Obligations.AcceptEmitsAndDropsTheFrame
  intro s m k hst hd
  obtain ⟨-, -, hL, -, hk, -⟩ := decodeFrame_complete hd
  exact ⟨by omega, by omega, exec_row_of_enabled ((enabled_accept_iff s m k).2 ⟨hst, hd⟩)⟩

/-- Settles O14: the row performs the enabled REJECT; behind a right marker the decoder has two errors. -/
theorem rejectReportsAndDropsOneByte : Obligations.RejectReportsAndDropsOneByte := by
  unfold Obligations.RejectReportsAndDropsOneByte
  intro s e hst hd
  exact ⟨exec_row_of_enabled ((enabled_reject_iff s e).2 ⟨hst, hd⟩),
    fun hm => decodeFrame_invalid_of_markerOk (markerOk_of_startsWithMarker hm) hd⟩

end Sys2Proof.Machine
end

section
/-! PROOFS. The host transactions (spec/43_synchronizer.md R182, R184, R185), and that none stops the block (R204,
R250). -/

namespace Sys2Proof.Machine

variable {s t : State} {i : Instr}

/-- Settles O3: a ready block is taken as it is. -/
theorem nopLeavesTheWholeState : Obligations.NopLeavesTheWholeState := by
  unfold Obligations.NopLeavesTheWholeState
  intro data s hs
  rw [exec_nop, whenReady_of_inReady hs]

/-- Settles O4: RESET's writes are constants, so writing them again changes nothing. -/
theorem resetWritesTheResetValues : Obligations.ResetWritesTheResetValues := by
  unfold Obligations.ResetWritesTheResetValues
  intro data s
  refine ⟨exec_reset s data, fun again t ht => ?_⟩
  rw [exec_reset] at ht
  cases ht
  exact exec_reset s.resetSync again

/-- Settles O5: the reserved op of a ready block is its mark. -/
theorem reservedOpLeavesOnlyItsMark : Obligations.ReservedOpLeavesOnlyItsMark := by
  unfold Obligations.ReservedOpLeavesOnlyItsMark
  intro data s hs
  rw [exec_rsvd, whenReady_of_inReady hs]
  rfl

/-- Every command word has a next state (R73, R204). -/
theorem exec_decodeCommand_next (word : BitVec 10) (s : State) : ∃ t, exec (decodeCommand word) s = .next t := by
  unfold decodeCommand
  dsimp only
  split_ifs
  · exact ⟨_, exec_nop s _⟩
  · exact ⟨_, exec_feed s _⟩
  · exact ⟨_, exec_reset s _⟩
  · exact ⟨_, exec_rsvd s _⟩

theorem drain_pending (s : State) : s.drain.pending = s.pending := by
  refine drain_keeps (P := fun t => t.pending = s.pending) (fun u a _ hu => ?_) rfl
  obtain ⟨-, -, -, hframe, -, -⟩ := perform_frame u a
  rw [hframe, hu]

/-- No row writes the port (R49). -/
theorem rowEffect_pending (he : RowEffect i s t) : t.pending = s.pending := by
  cases he with
  | feed b _ _ => exact drain_pending (s.memWrite b)
  | act a _ => obtain ⟨-, -, -, hframe, -, -⟩ := perform_frame s a; exact hframe
  | same | mark _ | ret _ | reset => rfl

theorem retClass_ne_fault (s : State) (len : U16) (payload : List Byte) (r : ClassResult) (f : Fault) :
    s.retClass len payload r ≠ .fault f := by
  unfold State.retClass
  split <;> exact nofun

theorem emitting_ne_fault (s : State) (code : BitVec 3) (f : Fault) : s.emitting code ≠ .fault f := by
  unfold State.emitting
  split
  · exact nofun
  · split <;> exact nofun

theorem exec_engineRow_ne_fault (hi : i ∈ [Instr.skip, .lock, .accept, .reject]) (s : State) (f : Fault) :
    exec i s ≠ .fault f := by
  obtain ⟨a, ha, rfl⟩ | hrefused := exec_engineRow (s := s) hi
  · rw [exec_row_of_enabled ha]; exact nofun
  · rw [hrefused]; exact nofun

/-- A fault is a mark in the state, never an outcome (log entry 7). -/
theorem exec_ne_fault (i : Instr) (s : State) (f : Fault) : exec i s ≠ .fault f := by
  cases i with
  | nop _ | feed _ | reset _ | rsvd _ | markerD | markerF | evUnknownType | evRsvd _ | ckVerify _ | decode _ =>
    exact nofun
  | ack _ _ _ | cmdHi _ _ | classify _ _ _ => exact retClass_ne_fault s _ _ _ f
  | cmd _ _ _ => rw [exec_cmd, execCmd]; split; exacts [retClass_ne_fault s _ _ _ f, nofun]
  | unknown _ _ _ => rw [exec_unknown, execUnknown]; split; exacts [nofun, retClass_ne_fault s _ _ _ f]
  | evDecoded | evBadMarker | evChecksumMismatch | evLengthMismatch => exact emitting_ne_fault s _ f
  | skip | lock | accept | reject => exact exec_engineRow_ne_fault (by simp) s f
  | ckCompute _ _ _ _ _ _ => rw [exec_ckCompute, execCkCompute]; split <;> exact nofun

theorem step_ne_fault (s : State) (f : Fault) : step s ≠ .fault f := by
  rw [step_eq_outcome]
  cases s.fetch with
  | done t => exact nofun
  | run i t => exact exec_ne_fault i t f
  | stop r => exact nofun

/-- What the port makes of a producer's instruction (R284). -/
theorem fromProducer_cases (s : State) (q : Nat) (i : Instr) :
    s.fromProducer q i = .run i { s with owner := some q } ∨ s.fromProducer q i = .done (s.mark .concurrentFeed) := by
  cases ho : s.owner with
  | none => exact .inl (fromProducer_of_owner (.inl ho))
  | some first =>
    by_cases hq : first = q
    · exact .inl (fromProducer_of_owner (.inr (hq ▸ ho)))
    · exact .inr (fromProducer_of_other ho hq)

/-- Settles O50: the owner's command is run, and another producer's leaves its mark. -/
theorem transactionsNeverStopTheBlock : Obligations.TransactionsNeverStopTheBlock := by
  unfold Obligations.TransactionsNeverStopTheBlock
  refine ⟨fun s q word rest hp => ?_, step_ne_fault⟩
  obtain hrun | hdone := fromProducer_cases { s with pending := rest } q (decodeCommand word)
  · obtain ⟨t, ht⟩ := exec_decodeCommand_next word { s with pending := rest, owner := some q }
    exact ⟨t, (step_of_receive_run hp hrun).trans ht, rowEffect_pending (exec_effect ht)⟩
  · exact ⟨_, step_of_fetch_done ((fetch_of_pending_cons hp).trans hdone), rfl⟩

end Sys2Proof.Machine
end

section
/-! PROOFS. What the actions of a drain come to (spec/43_synchronizer.md R183, R188): the stream bytes they drop, the
events they append (R201, R202), and the fields they leave. -/

namespace Sys2Proof.Machine

variable {s t : State} {a : Action} {k : Nat} {evs : List Emission}

/-- A drain performs enabled actions, at most as many as its fuel (R188). -/
theorem actionsLead_drainUpTo : ∀ (n : Nat) (s : State), ∃ k ≤ n, ActionsLead k s (s.drainUpTo n)
  | 0, _ => ⟨0, le_rfl, rfl⟩
  | n + 1, s => by
    cases ha : s.enabled with
    | none => exact ⟨0, Nat.zero_le _, (drainUpTo_of_inReady _ ((enabled_eq_none_iff s).1 ha)).symm⟩
    | some a =>
      obtain ⟨k, hk, hlead⟩ := actionsLead_drainUpTo n (s.perform a)
      rw [drainUpTo_of_enabled n ha]
      exact ⟨k + 1, Nat.succ_le_succ hk, a, ha, hlead⟩

theorem mu_le (s : State) : s.mu ≤ 2 * s.win.length + 1 := by
  unfold State.mu
  split <;> omega

/-- Settles O7: a ready window has at most 2059 bytes, so `mu` is at most 4121 with one more. -/
theorem feedAppendsAndRunsToQuiescence : Obligations.FeedAppendsAndRunsToQuiescence := by
  unfold Obligations.FeedAppendsAndRunsToQuiescence
  intro b s hs
  obtain ⟨n, hn, hlead⟩ := actionsLead_drainUpTo (s.memWrite b).mu (s.memWrite b)
  have hwin := win_length_le_of_inReady hs
  have hmu := mu_le (s.memWrite b)
  rw [State.memWrite_win, List.length_append, List.length_singleton] at hmu
  refine ⟨(s.memWrite b).drain, n, ?_, by omega, hlead, drain_inReady _⟩
  rw [exec_feed, feedByte_of_inReady hs]

/-- How many stream bytes an action drops (R193, R194, R196, R197). -/
def Action.bytes : Action → Nat
  | .skip => 1
  | .lock => 0
  | .accept _ k => k
  | .reject _ => 1

theorem perform_win (s : State) (a : Action) : (s.perform a).win = s.win.drop a.bytes := by
  cases a <;> simp [State.perform, Action.bytes]

theorem perform_head (s : State) (a : Action) : (s.perform a).head = s.head + a.bytes := by
  cases a <;> simp [State.perform, Action.bytes]

/-- An enabled action drops bytes that are present (R132). -/
theorem bytes_le_of_enabled (ha : s.enabled = some a) : a.bytes ≤ s.win.length := by
  rcases enabled_cases ha with ⟨rfl, -, hw, -⟩ | ⟨rfl, -⟩ | ⟨m, k, rfl, -, hd⟩ | ⟨e, rfl, -, hd⟩
  · exact seekWaits_false_length hw
  · exact Nat.zero_le _
  · obtain ⟨-, hlen, -, -, rfl, -⟩ := decodeFrame_complete hd
    exact hlen
  · exact List.length_pos_iff.2 (decodeFrame_invalid_nonempty hd)

/-- The message of a whole frame counts the bytes it consumed (R70, R128). -/
theorem consumed_of_complete {p : Params} {w : List Byte} {m : Message} (h : decodeFrame p w = .complete m k) :
    m.consumed = k := by
  obtain ⟨-, -, -, -, rfl, cls, rc, -, rfl⟩ := decodeFrame_complete h
  rfl

/-- An event covers the bytes its action drops (R201). -/
theorem span_eq_bytes {hunt : Bool} {e : Event} (ha : s.enabled = some a) (he : a.event hunt = some e) :
    e.span = a.bytes := by
  cases a with
  | skip =>
    cases hunt with
    | true => cases he
    | false => cases he; rfl
  | lock => cases he
  | accept m k => cases he; exact consumed_of_complete ((enabled_accept_iff s m k).1 ha).2
  | reject e => cases he; rfl

/-- A message is emitted where the decoder reads it (R196). -/
theorem complete_of_event_decoded {hunt : Bool} {m : Message} (ha : s.enabled = some a)
    (he : a.event hunt = some (.decoded m)) : decodeFrame s.cfg s.win = .complete m m.consumed := by
  cases a with
  | skip => cases hunt <;> cases he
  | lock => cases he
  | accept m k =>
    cases he
    obtain ⟨-, hd⟩ := (enabled_accept_iff s m k).1 ha
    rw [hd, consumed_of_complete hd]
  | reject e => cases he

/-- Actions that lead from `s` to `t` have dropped `k` bytes and written nothing but `st`, `hunt`, `win`, `head` and
the events. -/
structure Drops (s t : State) (k : Nat) : Prop where
  le : k ≤ s.win.length
  win : t.win = s.win.drop k
  head : t.head = s.head + k
  frame : t.faults = s.faults ∧ t.cfg = s.cfg ∧ t.taken = s.taken ∧ t.pending = s.pending ∧ t.owner = s.owner ∧
    t.result = s.result

theorem Drops.refl (s : State) : Drops s s 0 := ⟨Nat.zero_le _, rfl, rfl, rfl, rfl, rfl, rfl, rfl, rfl⟩

theorem Drops.perform (h : Drops s t k) (ha : t.enabled = some a) : Drops s (t.perform a) (k + a.bytes) where
  le := by
    have hle := bytes_le_of_enabled ha
    rw [h.win, List.length_drop] at hle
    have := h.le
    omega
  win := by rw [perform_win, h.win, List.drop_drop]
  head := by rw [perform_head, h.head, Nat.add_assoc]
  frame := by
    obtain ⟨hfaults, hcfg, htaken, hpending, howner, hresult⟩ := perform_frame t a
    rw [hfaults, hcfg, htaken, hpending, howner, hresult]
    exact h.frame

/-- The events `evs` follow the stream that `s` holds, up to `t` (R201, R202). -/
structure Follows (s t : State) (evs : List Emission) : Prop where
  out : t.out = s.out ++ evs
  ordered : evs.Pairwise fun x y => x.endPos ≤ y.pos
  within : ∀ x ∈ evs, s.head ≤ x.pos ∧ x.endPos ≤ t.head
  reads : ∀ x ∈ evs, ∀ m, x.event = .decoded m →
    decodeFrame s.cfg (s.win.drop (x.pos - s.head)) = .complete m m.consumed

theorem Follows.refl (s : State) : Follows s s [] :=
  ⟨(List.append_nil _).symm, .nil, fun _ h => absurd h List.not_mem_nil, fun _ h => absurd h List.not_mem_nil⟩

/-- An action that emits nothing moves `head` on at most. -/
theorem Follows.perform_silent (h : Follows s t evs) (he : a.event t.hunt = none) :
    Follows s (t.perform a) evs where
  out := by simp [perform_out, he, h.out]
  ordered := h.ordered
  within x hx := by
    obtain ⟨hpos, hend⟩ := h.within x hx
    rw [perform_head]
    exact ⟨hpos, by omega⟩
  reads := h.reads

/-- An action that emits an event does so at the old `head`, where the events so far have ended, and covers the bytes
up to the new one. -/
theorem Follows.perform_emits {e : Event} (h : Follows s t evs) (hd : Drops s t k) (ha : t.enabled = some a)
    (he : a.event t.hunt = some e) : Follows s (t.perform a) (evs ++ [⟨e, t.head⟩]) where
  out := by simp [perform_out, he, h.out]
  ordered := by
    refine List.pairwise_append.2 ⟨h.ordered, List.pairwise_singleton _ _, fun x hx y hy => ?_⟩
    rw [List.mem_singleton.1 hy]
    exact (h.within x hx).2
  within x hx := by
    rw [perform_head]
    obtain hx | hx := List.mem_append.1 hx
    · obtain ⟨hpos, hend⟩ := h.within x hx
      exact ⟨hpos, by omega⟩
    · rw [List.mem_singleton.1 hx, Emission.endPos, span_eq_bytes ha he, hd.head]
      exact ⟨Nat.le_add_right _ _, le_rfl⟩
  reads x hx m hm := by
    obtain hx | hx := List.mem_append.1 hx
    · exact h.reads x hx m hm
    · obtain ⟨-, hcfg, -⟩ := hd.frame
      rw [List.mem_singleton.1 hx] at hm ⊢
      cases hm
      rw [hd.head, Nat.add_sub_cancel_left, ← hd.win, ← hcfg]
      exact complete_of_event_decoded ha he

/-- The two together are carried through a drain, action by action. -/
theorem drain_drops_follows (s : State) : ∃ k evs, Drops s s.drain k ∧ Follows s s.drain evs := by
  refine drain_keeps (P := fun t => ∃ k evs, Drops s t k ∧ Follows s t evs) ?_ ⟨0, [], .refl s, .refl s⟩
  rintro t a ha ⟨k, evs, hd, hf⟩
  refine ⟨k + a.bytes, ?_⟩
  cases he : a.event t.hunt with
  | none => exact ⟨evs, hd.perform ha, hf.perform_silent he⟩
  | some e => exact ⟨_, hd.perform ha, hf.perform_emits hd ha he⟩

/-- Settles O8: the drain drops bytes at the old end of the appended window. -/
theorem feedFrame : Obligations.FeedFrame := by
  unfold Obligations.FeedFrame
  intro b s hs
  obtain ⟨k, evs, hd, hf⟩ := drain_drops_follows (s.memWrite b)
  have hle := hd.le
  rw [State.memWrite_win, List.length_append, List.length_singleton] at hle
  refine ⟨rfl, rfl, (s.memWrite b).drain, k, evs, ?_, hle, hd.win, hd.head, hf.out, hd.frame⟩
  rw [exec_feed, feedByte_of_inReady hs]

/-- Settles O53: the events of the drain follow the appended window. -/
theorem eventsFollowTheStream : Obligations.EventsFollowTheStream := by
  unfold Obligations.EventsFollowTheStream
  intro b s hs
  obtain ⟨k, evs, -, hf⟩ := drain_drops_follows (s.memWrite b)
  refine ⟨(s.memWrite b).drain, evs, ?_, hf.out, hf.ordered, hf.within, hf.reads⟩
  rw [exec_feed, feedByte_of_inReady hs]

end Sys2Proof.Machine
end

section
/-! PROOFS. Chunk independence (spec/43_synchronizer.md R199): bytes appended behind the window change neither the
enabled action nor what it does, so they may as well come after the drain. -/

namespace Sys2Proof.Machine

variable {s : State} {a : Action}

/-- A chunk appended whole; `memWrite` is the chunk of one byte. -/
def State.appendBytes (s : State) (u : List Byte) : State := { s with win := s.win ++ u }

theorem memWrite_eq_appendBytes (s : State) (b : Byte) : s.memWrite b = s.appendBytes [b] := rfl

theorem appendBytes_nil (s : State) : s.appendBytes [] = s := by
  rw [State.appendBytes, List.append_nil]

theorem appendBytes_appendBytes (s : State) (u v : List Byte) :
    (s.appendBytes u).appendBytes v = s.appendBytes (u ++ v) := by
  simp [State.appendBytes]

/-- Action selection reads only bytes that are present (R131, R192). -/
theorem enabled_appendBytes (ha : s.enabled = some a) (u : List Byte) : (s.appendBytes u).enabled = some a := by
  have hlen : s.win.length ≤ (s.win ++ u).length := List.length_append ▸ Nat.le_add_right _ _
  cases a with
  | skip =>
    obtain ⟨hst, hwin⟩ := seek_of_enabled_skip ha
    refine enabled_skip hst ?_
    obtain ⟨h, h0⟩ | ⟨h, h0, h1⟩ := hwin
    · refine .inl ⟨h.trans hlen, ?_⟩
      rwa [State.appendBytes, byteAt_append_left (by omega)]
    · refine .inr ⟨h.trans hlen, ?_, ?_⟩
      all_goals rwa [State.appendBytes, byteAt_append_left (by omega)]
  | lock =>
    obtain ⟨hst, hm⟩ := (enabled_lock_iff s).1 ha
    exact (enabled_lock_iff _).2 ⟨hst, startsWithMarker_append hm u⟩
  | accept m k =>
    obtain ⟨hst, hd⟩ := (enabled_accept_iff s m k).1 ha
    exact (enabled_accept_iff _ m k).2 ⟨hst, (decodeFrame_append_of_ne_incomplete (hd ▸ nofun) u).trans hd⟩
  | reject e =>
    obtain ⟨hst, hd⟩ := (enabled_reject_iff s e).1 ha
    exact (enabled_reject_iff _ e).2 ⟨hst, (decodeFrame_append_of_ne_incomplete (hd ▸ nofun) u).trans hd⟩

theorem recover_withWin (s : State) (w : List Byte) (r : Option FrameError) :
    State.recover { s with win := w } r = { s.recover r with win := w.drop 1 } := by
  cases r <;> rfl

/-- What an action writes besides the window does not depend on the window (R193, R194, R196, R197). -/
theorem perform_withWin (s : State) (w : List Byte) (a : Action) :
    State.perform { s with win := w } a = { s.perform a with win := w.drop a.bytes } := by
  cases a with
  | skip => exact recover_withWin s w _
  | lock => rfl
  | accept m k => rfl
  | reject e => exact recover_withWin s w _

/-- An enabled action drops bytes of the window it found, so the appended ones stay behind (R196). -/
theorem perform_appendBytes (ha : s.enabled = some a) (u : List Byte) :
    (s.appendBytes u).perform a = (s.perform a).appendBytes u := by
  rw [State.appendBytes, perform_withWin, List.drop_append_of_le_length (bytes_le_of_enabled ha), ← perform_win,
    State.appendBytes]

/-- Draining before the chunk arrives changes nothing. -/
theorem drain_appendBytes_drain (s : State) (u : List Byte) :
    (s.drain.appendBytes u).drain = (s.appendBytes u).drain := by
  refine drain_keeps (P := fun t => (t.appendBytes u).drain = (s.appendBytes u).drain) (fun t a ha ht => ?_) rfl
  rw [← perform_appendBytes ha, ← drain_of_enabled (enabled_appendBytes ha u), ht]

theorem feedAll_cons (b : Byte) (bs : List Byte) (s : State) : feedAll (b :: bs) s = feedAll bs (s.feedByte b) := rfl

/-- Feeding a chunk is appending it and draining once, by induction on the chunk. -/
theorem feedAll_of_inReady : ∀ (bs : List Byte) (s : State), s.inReady = true →
    feedAll bs s = .next (s.appendBytes bs).drain
  | [], s, hs => by rw [feedAll, appendBytes_nil, drain_of_inReady hs]
  | b :: bs, s, hs => by
    rw [feedAll_cons, feedByte_of_inReady hs, feedAll_of_inReady bs _ (drain_inReady _), drain_appendBytes_drain,
      memWrite_eq_appendBytes, appendBytes_appendBytes, List.singleton_append]

/-- Settles O54: the chunk in the window is the chunk appended. -/
theorem chunksCannotBeSeen : Obligations.ChunksCannotBeSeen := feedAll_of_inReady

end Sys2Proof.Machine
end

section
/-! PROOFS. A frame fed in SEEK to an empty window, and junk before it (spec/43_synchronizer.md R193, R200, R203). -/

namespace Sys2Proof.Machine

variable {s : State} {p : Params} {f : List Byte} {m : Message}

/-- A whole frame begins with the marker (R122, R123). -/
theorem startsWithMarker_of_complete {k : Nat} (h : decodeFrame p f = .complete m k) :
    startsWithMarker f = true := by
  obtain ⟨⟨h0, h1⟩, hlen, -⟩ := decodeFrame_complete h
  exact (startsWithMarker_iff f).2 ⟨by omega, h0 (by omega), h1 (by omega)⟩

/-- Less than a whole frame is Incomplete: a decision would stand for the frame, and count bytes that are not there
(R131). -/
theorem decodeFrame_take_of_complete (h : decodeFrame p f = .complete m f.length) {n : Nat} (hn : n < f.length) :
    decodeFrame p (f.take n) = .incomplete := by
  by_contra hne
  have hstable := decodeFrame_append_of_ne_incomplete hne (f.drop n)
  rw [List.take_append_drop, h] at hstable
  obtain ⟨-, hlen, -, -, hk, -⟩ := decodeFrame_complete hstable.symm
  rw [List.length_take] at hlen
  omega

theorem inReady_of_seek_nil (hst : s.st = .seek) (hwin : s.win = []) : s.inReady = true := by
  rw [inReady_of_seek hst, hwin]
  rfl

/-- In SEEK an incomplete frame emits nothing: it is awaited, or locked and awaited (R187, R194). -/
theorem drain_out_of_incomplete (hst : s.st = .seek) (h : decodeFrame s.cfg s.win = .incomplete) :
    s.drain.out = s.out := by
  obtain hwin | hwin | hm := (markerOk_iff s.win).1 (decodeFrame_incomplete h).1
  · rw [drain_of_inReady (inReady_of_seek_nil hst hwin)]
  · rw [drain_of_inReady (by rw [inReady_of_seek hst, hwin]; rfl)]
  · have hready : s.lock.inReady = true := (inReady_of_acc s.lock_st).trans (decide_eq_true h)
    rw [drain_of_enabled ((enabled_lock_iff s).2 ⟨hst, hm⟩), State.perform, drain_of_inReady hready, State.lock_out]

/-- In SEEK a whole frame that fills the window is locked and accepted (R194, R196). -/
theorem drain_of_complete (hst : s.st = .seek) (h : decodeFrame s.cfg s.win = .complete m s.win.length) :
    s.drain = { s with
      win := []
      hunt := false
      head := s.head + s.win.length
      out := s.out ++ [⟨.decoded m, s.head⟩] } := by
  have hlock := (enabled_lock_iff s).2 ⟨hst, startsWithMarker_of_complete h⟩
  have haccept := (enabled_accept_iff s.lock m s.win.length).2 ⟨s.lock_st, h⟩
  have hready := inReady_of_seek_nil (s.lock.accept_st m s.win.length) (by simp)
  rw [drain_of_enabled hlock, State.perform, drain_of_enabled haccept, State.perform, drain_of_inReady hready]
  simp [State.accept, State.lock, State.setSync, State.dropBytes, State.emit, hst]

/-- What is fed to an empty window is the window to drain. -/
theorem feedAll_of_win_nil (hst : s.st = .seek) (hwin : s.win = []) (bs : List Byte) :
    feedAll bs s = .next (State.drain { s with win := bs }) := by
  rw [feedAll_of_inReady bs s (inReady_of_seek_nil hst hwin), State.appendBytes, hwin, List.nil_append]

/-- The whole frame, fed byte by byte (R200). -/
theorem feedAll_frame (hst : s.st = .seek) (hwin : s.win = []) (h : decodeFrame s.cfg f = .complete m f.length) :
    feedAll f s = .next { s with
      hunt := false
      head := s.head + f.length
      out := s.out ++ [⟨.decoded m, s.head⟩] } := by
  rw [feedAll_of_win_nil hst hwin, drain_of_complete (s := { s with win := f }) hst h, ← hwin]

/-- Settles O55: what is short of the frame is incomplete. -/
theorem partialDeliveryEmitsOnlyAtTheEnd : Obligations.PartialDeliveryEmitsOnlyAtTheEnd := by
  unfold Obligations.PartialDeliveryEmitsOnlyAtTheEnd
  intro s f m hst hwin hd
  refine ⟨fun n hn => ⟨_, feedAll_of_win_nil hst hwin (f.take n), ?_⟩, feedAll_frame hst hwin hd⟩
  exact drain_out_of_incomplete (s := { s with win := f.take n }) hst (decodeFrame_take_of_complete hd hn)

/-- A byte that begins no marker is skipped at once (R193). -/
theorem feedByte_of_stray (hst : s.st = .seek) (hwin : s.win = []) {b : Byte} (hb : b ≠ 0x44) :
    s.feedByte b = { s with
      head := s.head + 1
      hunt := true
      out := if s.hunt then s.out else s.out ++ [⟨.error .badMarker, s.head⟩] } := by
  have hwrite : s.memWrite b = { s with win := [b] } := by rw [State.memWrite, hwin, List.nil_append]
  have hskip : State.enabled { s with win := [b] } = some .skip := enabled_skip hst (.inl ⟨le_rfl, hb⟩)
  rw [feedByte_of_inReady (inReady_of_seek_nil hst hwin), hwrite, drain_of_enabled hskip, State.perform,
    drain_of_inReady (inReady_of_seek_nil (State.skip_st _) (State.skip_win _)),
    skip_eq_of_seek (s := { s with win := [b] }) hst, hwin]
  rfl

/-- Settles O9: the stray byte is skipped. -/
theorem feedOfAStrayByteIsSkipped : Obligations.FeedOfAStrayByteIsSkipped := by
  unfold Obligations.FeedOfAStrayByteIsSkipped
  intro b s hst hwin hb
  rw [exec_feed, feedByte_of_stray hst hwin hb]

/-- Settles O56, by induction on the junk: after its first byte `hunt` is 1 and nothing more is reported. -/
theorem junkWithoutAMarkerByteLosesNoFrame : Obligations.JunkWithoutAMarkerByteLosesNoFrame := by
  unfold Obligations.JunkWithoutAMarkerByteLosesNoFrame
  intro s junk f m hst hwin hjunk hd
  induction junk generalizing s with
  | nil => simpa using feedAll_frame hst hwin hd
  | cons b junk ih =>
    obtain ⟨hb, hjunk⟩ := List.forall_mem_cons.1 hjunk
    rw [List.cons_append, feedAll_cons, feedByte_of_stray hst hwin hb]
    refine (ih _ (by exact hst) (by exact hwin) hjunk (by exact hd)).trans ?_
    cases hh : s.hunt <;> simp [Nat.add_assoc, Nat.add_comm 1]

end Sys2Proof.Machine
end

section
/-! PROOFS. The hazards and what else the port deals with without running a row (spec/70_reset_and_hazards.md R274,
R283 to R286). -/

namespace Sys2Proof.Machine

variable {s t : State} {item : Item} {rest : List Item} {p : Params}

/-- A thing that is dealt with at the port is the whole step (R10). -/
theorem step_of_receive_done (hp : s.pending = item :: rest)
    (hr : State.receive { s with pending := rest } item = .done t) : step s = .next t :=
  step_of_fetch_done ((fetch_of_pending_cons hp).trans hr)

/-- Before the first transaction a configuration is put in force (R274). -/
theorem configure_of_owner_none (ho : s.owner = none) : s.configure p = { s with cfg := p } := by
  simp [State.configure, ho]

/-- After the first transaction the configuration in force, presented again, changes nothing (R286). -/
theorem configure_of_same {q : Nat} (ho : s.owner = some q) (h : sameParams p s.cfg = true) : s.configure p = s := by
  simp [State.configure, ho, h]

/-- After the first transaction a change of configuration is its mark (R286). -/
theorem configure_of_change {q : Nat} (ho : s.owner = some q) (h : ¬sameParams p s.cfg = true) :
    s.configure p = s.mark .configChanged := by
  simp [State.configure, ho, h]

/-- Parameters that differ in ENDIAN, in CKSUM or on a base code are a change (R7, R286). -/
theorem not_sameParams_iff (p q : Params) :
    ¬sameParams p q = true ↔
      p.endian ≠ q.endian ∨ p.cksum ≠ q.cksum ∨ ∃ base, registrySize p.reg base ≠ registrySize q.reg base := by
  rw [sameParams_iff, not_and_or, not_and_or, not_forall]

/-- A presented configuration is dealt with at the port (R274, R286). -/
theorem step_of_configure (hp : s.pending = .configure p :: rest)
    (hc : State.configure { s with pending := rest } p = t) : step s = .next t :=
  step_of_receive_done hp (congrArg Fetched.done hc)

/-- Settles O43: the port compares the presented parameters with those in force. -/
theorem configurationIsFixedByTheFirstTransaction : Obligations.ConfigurationIsFixedByTheFirstTransaction := by
  unfold Obligations.ConfigurationIsFixedByTheFirstTransaction
  intro s p rest hp
  refine ⟨?change, ?agree, ?before⟩
  case change =>
    exact fun q ho hne => step_of_configure hp (configure_of_change ho ((not_sameParams_iff p s.cfg).2 hne))
  case agree =>
    exact fun q ho hendian hcksum hreg =>
      step_of_configure hp (configure_of_same ho ((sameParams_iff p s.cfg).2 ⟨hendian, hcksum, hreg⟩))
  case before =>
    exact fun ho => step_of_configure hp (configure_of_owner_none ho)

/-- A byte presented to a busy block is not taken (R283). -/
theorem feedByte_of_busy (h : s.inReady = false) (b : Byte) : s.feedByte b = s.mark .feedWhileBusy :=
  whenReady_of_busy h _

/-- Settles O6: each of the rows is taken only when the block is ready. -/
theorem busyTransactionLeavesOnlyItsMark : Obligations.BusyTransactionLeavesOnlyItsMark := by
  unfold Obligations.BusyTransactionLeavesOnlyItsMark
  intro data b s hs i hi
  change exec i s = .next (s.mark .feedWhileBusy)
  simp only [List.mem_cons, List.not_mem_nil, or_false] at hi
  obtain rfl | rfl | rfl | rfl | rfl := hi
  · rw [exec_nop, whenReady_of_busy hs]
  · rw [exec_feed, feedByte_of_busy hs]
  · rw [exec_rsvd, whenReady_of_busy hs]
  · rw [exec_markerD, feedByte_of_busy hs]
  · rw [exec_markerF, feedByte_of_busy hs]

/-- What a second producer presents leaves the port with its mark, whatever instruction it is (R284). -/
theorem step_of_second_producer {first second : Nat} {i : Instr} (ho : s.owner = some first) (hne : second ≠ first)
    (hp : s.pending = item :: rest)
    (hr : State.receive { s with pending := rest } item = State.fromProducer { s with pending := rest } second i) :
    step s = .next (State.mark { s with pending := rest } .concurrentFeed) :=
  step_of_receive_done hp (hr.trans (fromProducer_of_other ho hne.symm))

/-- Settles O42: neither a command word nor a marker byte of a second producer is run. -/
theorem secondProducerLeavesOnlyItsMark : Obligations.SecondProducerLeavesOnlyItsMark := by
  unfold Obligations.SecondProducerLeavesOnlyItsMark
  intro s first second rest ho hne
  refine ⟨fun word hp => step_of_second_producer ho hne hp (receive_transaction _ second word), fun b hb hp => ?_⟩
  have hd : ∃ i, decodeMarker b = .ok i := by
    obtain rfl | rfl := hb
    · exact ⟨.markerD, rfl⟩
    · exact ⟨.markerF, rfl⟩
  obtain ⟨i, hd⟩ := hd
  exact step_of_second_producer ho hne hp (receive_marker_of_decode _ second hd)

/-- An event that was emitted and not taken is taken (R285). -/
theorem takeEvent_of_lt (h : s.taken < s.out.length) : s.takeEvent = { s with taken := s.taken + 1 } := by
  rw [State.takeEvent, min_eq_left (Nat.succ_le_of_lt h)]

/-- With every event taken there is none to take (R285). -/
theorem takeEvent_of_all_taken (h : s.taken = s.out.length) : s.takeEvent = s := by
  rw [State.takeEvent, ← h, min_eq_right (Nat.le_succ _)]

/-- A consumer's take is dealt with at the port (R285). -/
theorem step_of_take (hp : s.pending = .take :: rest) (ht : State.takeEvent { s with pending := rest } = t) :
    step s = .next t :=
  step_of_receive_done hp (congrArg Fetched.done ht)

/-- Settles O44: the count of taken events stops at the events emitted. -/
theorem consumerTakesTheNextEvent : Obligations.ConsumerTakesTheNextEvent := by
  unfold Obligations.ConsumerTakesTheNextEvent
  intro s rest hp
  exact ⟨fun hlt => step_of_take hp (takeEvent_of_lt hlt), fun hall => step_of_take hp (takeEvent_of_all_taken hall)⟩

end Sys2Proof.Machine
end
